-- ==== Sys2Proof/Word.lean ====
section
/-! DEFINITION. The widths of the block: bytes, signed 16-bit words, 9-bit counters, the 32-bit violation set
(00_scope.md R7, 10_state.md R10, R11). `u8(b)` of the spec is `b.toNat`, `s16(w)` is `w.toInt`. -/

namespace Sys2Proof

/-- A byte: 8 bits, read unsigned unless a rule says otherwise (R7). -/
abbrev Byte := BitVec 8

/-- A 16-bit pattern, read as `int16` by every comparison (R7, R11). -/
abbrev Word := BitVec 16

/-- The 9-bit registers `FIDX`, `RES_SENT` and the 9-bit value `FLEN` (R10). -/
abbrev Count := BitVec 9

/-- The 9-bit selector `{VAR, OP}` (R51). -/
abbrev Selector := BitVec 9

/-- The violation set `ERRSET`: bit `i` is violation `i` of the command (R15, R144). -/
abbrev ErrSet := BitVec 32

end Sys2Proof
end

