-- ==== Sys2Proof/Machine/Limits.lean ====
section
/-! DEFINITION. The sizes and ranges 00_scope.md R5 fixes and R6 decides, under the spec's names. -/

namespace Sys2Proof.Machine.Limits

/-- `SONG_SLOTS`. -/
@[simp] abbrev songSlots : Nat := 4
/-- `SONG_MAX_NOTES`. -/
@[simp] abbrev songMaxNotes : Nat := 16
/-- `NOTE_MIN`. -/
@[simp] abbrev noteMin : Nat := 31
/-- `NOTE_MAX`. -/
@[simp] abbrev noteMax : Nat := 127
/-- `DAYS`. -/
@[simp] abbrev days : Nat := 7
/-- `HOUR_MAX`. -/
@[simp] abbrev hourMax : Nat := 23
/-- `MINUTE_MAX`. -/
@[simp] abbrev minuteMax : Nat := 59
/-- `VEL_MIN`. -/
@[simp] abbrev velMin : Int := -500
/-- `VEL_MAX`. -/
@[simp] abbrev velMax : Int := 500
/-- `RAD_MIN`. -/
@[simp] abbrev radMin : Int := -2000
/-- `RAD_MAX`. -/
@[simp] abbrev radMax : Int := 2000
/-- `RAD_STRAIGHT`: the two radius values that mean "drive straight". -/
@[simp] abbrev radStraight : List Int := [32767, -32768]
/-- `PWM_MIN`. -/
@[simp] abbrev pwmMin : Int := -255
/-- `PWM_MAX`. -/
@[simp] abbrev pwmMax : Int := 255
/-- `BAUD_MAX`. -/
@[simp] abbrev baudMax : Nat := 11
/-- `VACUUM_MAX`. -/
@[simp] abbrev vacuumMax : Nat := 127
/-- `ASCII_DIGITS`. -/
@[simp] abbrev asciiDigits : Nat := 4
/-- `ASCII_PAD`. -/
@[simp] abbrev asciiPad : Byte := 0x20
/-- `K_MOTORS`. -/
@[simp] abbrev kMotors : Nat := 5
/-- `LIST_MAX`. -/
@[simp] abbrev listMax : Nat := 255
/-- `FB_MAX`. -/
@[simp] abbrev fbMax : Nat := 257

end Sys2Proof.Machine.Limits
end

