-- ==== Sys2Proof/Config.lean ====
section
/-! DEFINITION. What is fixed when the block is built and when the transport handle is made: the parameters the spec
leaves open (00_scope.md R6, 92_eei_decisions.md "Points left OPEN") and the transport's two identity strings
(20_memory.md R40, R45). -/

namespace Sys2Proof

/-- The parameters R6 tells a model to take as arguments. `exec` and `step` find them in the state, where no step
writes them (log 6). `BRUSH_PWM_VALID`, a predicate on bytes, is held as the bytes it refuses (log 7). -/
structure Params where
  /-- `K_LEDS`: flag count of the LEDs bitfield (R115). -/
  kLeds : Nat
  /-- `K_SCHEDLEDS`: flag count of the SchedulingLEDs bitfield (R117). -/
  kSchedLeds : Nat
  /-- `K_DIGOUT`: flag count of the DigitalOutput bitfield (R116). -/
  kDigout : Nat
  /-- `K_BUTTONS`: flag count of the Buttons bitfield (R118). -/
  kButtons : Nat
  /-- The bytes for which `BRUSH_PWM_VALID` is false (R95). -/
  brushRefused : List Byte
  deriving DecidableEq, Repr

/-- The flag counts are 1 to 8 (92_eei_decisions.md, table of open points). -/
abbrev Params.wf (p : Params) : Prop :=
  (1 ≤ p.kLeds ∧ p.kLeds ≤ 8) ∧ (1 ≤ p.kSchedLeds ∧ p.kSchedLeds ≤ 8) ∧
  (1 ≤ p.kDigout ∧ p.kDigout ≤ 8) ∧ (1 ≤ p.kButtons ∧ p.kButtons ≤ 8)

/-- The values of R6: `K_LEDS` = 4, `K_SCHEDLEDS` = 5, `K_DIGOUT` = 3, `K_BUTTONS` = 8, and every brush byte accepted.
PRESUMED (log 6): the spec marks the four counts "from general knowledge, not in source". -/
def Params.default : Params :=
  { kLeds := 4, kSchedLeds := 5, kDigout := 3, kButtons := 8, brushRefused := [] }

namespace Config

/-- The transport's identity string `name`: constant, its value not in the spec (R45; free value, log 20). -/
opaque transportName : String

/-- The transport's identity string `port/address`: constant, its value not in the spec (R45; free value, log 20). -/
opaque transportPort : String

end Config

end Sys2Proof
end

