-- ==== Sys2Proof/Syntax.lean ====
section
/-! DEFINITION. The commands with their typed operands (30_encoding.md R53, R60, R66, R67), the command descriptor that
carries them (10_state.md R11) and the nine payload formats (30_encoding.md R52). -/

namespace Sys2Proof

/-- A note of a song (44_list_commands.md R124). -/
structure Note where
  number : Byte
  duration : Byte
  deriving DecidableEq, Repr

/-- The hour and minute the host presents for one day of a schedule (45_schedule_commands.md R133). -/
structure TimeOfDay where
  hour : Byte
  minute : Byte
  deriving DecidableEq, Repr

/-- The thirty commands, one constructor per row of R60, in the order of the table. Operands are those of R53;
`flags` is the whole `FLAGS` byte, masked by the command's rule (R64, R113). -/
inductive Instr where
  | start
  | baud (code : Byte)
  | safe
  | full
  | power
  | spot
  | clean
  | max
  | demo (id : Byte)
  | drive (velocity radius : Word)
  | motors (flags : Byte)
  | leds (flags color intensity : Byte)
  /-- `count` is `LEN`; `notes` are the notes R125 examines, `LIST[2i]`, `LIST[2i+1]` for `i < min(LEN, 16)` (log 16). -/
  | song (slot count : Byte) (notes : List Note)
  | play (slot : Byte)
  | sensors (packetId : Byte)
  | seekDock
  | pwmMotors (main side vacuum : Byte)
  | driveDirect (right left : Word)
  | drivePWM (right left : Word)
  | digitalOutput (flags : Byte)
  | stream (ids : List Byte)
  | queryList (ids : List Byte)
  | pauseResumeStream (resume : Bool)
  | sendIR (byte : Byte)
  | schedulingLEDs (weekday flags : Byte)
  | digitLEDsRaw (d0 d1 d2 d3 : Byte)
  | digitLEDsASCII (message : List Byte)
  | buttons (flags : Byte)
  /-- `FLAGS[i]` says day `i` is active; `times` are the seven pairs `LIST[2i]`, `LIST[2i+1]` (R133). -/
  | schedule (flags : Byte) (times : List TimeOfDay)
  | setDateTime (weekday hour minute : Byte)
  deriving DecidableEq, Repr

/-- The pseudo-commands of R67, resolved in front of the block. -/
inductive PseudoCommand where
  | halt
  | disableSchedule
  | pauseStream
  | resumeStream
  deriving DecidableEq, Repr

/-- The command descriptor, sampled whole in the accept step (R11, R50). An input, not state. -/
structure Descriptor where
  op : Byte
  var : Bool
  w0 : Word
  w1 : Word
  b0 : Byte
  b1 : Byte
  b2 : Byte
  b3 : Byte
  flags : Byte
  len : Byte
  list : Vector Byte 255
  deriving DecidableEq, Repr

/-- The nine payload shapes of R52. -/
inductive Format where
  | Z | B1 | B2 | B3 | B4 | W2 | L1 | L2 | S15
  deriving DecidableEq, Repr

end Sys2Proof
end

