-- ==== Sys2Proof/Machine/Operands.lean ====
section
/-! DEFINITION. How operands are checked and assembled into payload bytes (30_encoding.md R54; 42_drive_commands.md R105,
R109; 44_list_commands.md R123, R124, R128; 45_schedule_commands.md R133). -/

namespace Sys2Proof.Machine

/-- `hi(w) = w[15:8]` (R7, R105). -/
def hi (w : Word) : Byte := w.extractLsb' 8 8

/-- `lo(w) = w[7:0]` (R7, R105). -/
def lo (w : Word) : Byte := w.extractLsb' 0 8

/-- The payload of format `W2`: two 16-bit values, each high byte first (R32, R52, R105). -/
def wordPair (w0 w1 : Word) : List Byte := [hi w0, lo w0, hi w1, lo w1]

/-- `in(v, lo, hi)`: the `int16` reading lies between the bounds, both included (R109). -/
def inRange (w : Word) (low high : Int) : Bool := decide (low ≤ w.toInt) && decide (w.toInt ≤ high)

/-- The count byte of a list, computed from its size (R123). -/
def countByte {α : Type} (l : List α) : Byte := BitVec.ofNat 8 l.length

/-- `valid(note)` (R124). -/
def noteValid (n : Note) : Bool := decide (Limits.noteMin ≤ n.number.toNat) && decide (n.number.toNat ≤ Limits.noteMax)

/-- The bytes of a note: number, then duration (R125). -/
def noteBytes (n : Note) : List Byte := [n.number, n.duration]

/-- `pad4(m, L)`: the first four characters, spaces where there are fewer (R128). -/
def pad4 (m : List Byte) : List Byte := (List.range Limits.asciiDigits).map fun j => m.getD j Limits.asciiPad

/-- The hour and minute bytes of the days from number `i` on: zero for an inactive day (R133). -/
def dayTimes (flags : Byte) : Nat → List TimeOfDay → List Byte
  | _, [] => []
  | i, t :: ts => (if flags.getLsbD i then [t.hour, t.minute] else [0, 0]) ++ dayTimes flags (i + 1) ts

end Sys2Proof.Machine
end

