-- ==== Sys2Proof/Machine/Flags.lean ====
section
/-! DEFINITION. The bits: packing of booleans into a bitfield byte (43_bitfield_commands.md R113) and the bits of the
violation set (00_scope.md R7 `violate(i)`, 60_exceptions.md R143, R144), the block's status flags (10_state.md R15). -/

namespace Sys2Proof.Machine

/-- `pack(k, flags) = flags & (2^k - 1)` (R113). -/
def pack (k : Nat) (flags : Byte) : Byte := flags &&& BitVec.ofNat 8 (2 ^ k - 1)

/-- The violation set with bit `i` if the check failed (R7, R143). -/
def violateIf (i : Nat) (failed : Bool) : ErrSet := if failed then BitVec.twoPow 32 i else 0

/-- The violations of the notes from number `i` on: bit `i` for an invalid note `i` (R125, R144). -/
def noteViolations : Nat → List Note → ErrSet
  | _, [] => 0
  | i, n :: ns => violateIf i (!noteValid n) ||| noteViolations (i + 1) ns

/-- The violations of the days from number `i` on: bits `2i` and `2i+1` for the hour and the minute of an active day
`i` (R134, R144). -/
def dayViolations (flags : Byte) : Nat → List TimeOfDay → ErrSet
  | _, [] => 0
  | i, t :: ts =>
    violateIf (2 * i) (flags.getLsbD i && decide (t.hour.toNat > Limits.hourMax)) |||
    violateIf (2 * i + 1) (flags.getLsbD i && decide (t.minute.toNat > Limits.minuteMax)) |||
    dayViolations flags (i + 1) ts

end Sys2Proof.Machine
end

