-- ==== Sys2Proof/WellFormed.lean ====
section
/-! DEFINITION. Which terms of `Instr` a descriptor can carry: the sizes of the list operands (10_state.md R11,
44_list_commands.md R123, R125, 45_schedule_commands.md R133). Scalar operands are bounded by their types (R180). -/

namespace Sys2Proof

/-- A list operand has as many entries as `LEN` announces and the descriptor carries. -/
def Instr.wf : Instr → Bool
  | .song _ count notes => notes.length == min count.toNat 16
  | .stream ids => ids.length ≤ 255
  | .queryList ids => ids.length ≤ 255
  | .digitLEDsASCII message => message.length ≤ 255
  | .schedule _ times => times.length == 7
  | .start | .baud _ | .safe | .full | .power | .spot | .clean | .max | .demo _ | .drive _ _ | .motors _ | .leds _ _ _
  | .play _ | .sensors _ | .seekDock | .pwmMotors _ _ _ | .driveDirect _ _ | .drivePWM _ _ | .digitalOutput _
  | .pauseResumeStream _ | .sendIR _ | .schedulingLEDs _ _ | .digitLEDsRaw _ _ _ _ | .buttons _
  | .setDateTime _ _ _ => true

end Sys2Proof
end

