-- ==== Sys2Proof/Decode.lean ====
section
/-! DEFINITION. The opcode map (30_encoding.md R51, R60 to R64), the decoder from a descriptor to a command, which rejects
an illegal selector by name, the encoder, and the pseudo-commands (R67). -/

namespace Sys2Proof

/-! ### Reading a descriptor -/

/-- The selector `SEL = {VAR, OP}` (R51). -/
def Descriptor.sel (d : Descriptor) : Selector := BitVec.ofBool d.var ++ d.op

/-- `LIST[j]` (R11). -/
def Descriptor.item (d : Descriptor) (j : Nat) : Byte := d.list.toList.getD j 0

/-- The first `n` entries of `LIST`, in order. -/
def Descriptor.items (d : Descriptor) (n : Nat) : List Byte := (List.range n).map d.item

/-- The notes R125 examines: `LIST[2i]` is the number and `LIST[2i+1]` the duration of note `i`, `i < min(LEN, 16)`. -/
def Descriptor.notes (d : Descriptor) : List Note :=
  (List.range (min d.len.toNat 16)).map fun i => ⟨d.item (2 * i), d.item (2 * i + 1)⟩

/-- The seven pairs of R133: `LIST[2i]` is the hour and `LIST[2i+1]` the minute of day `i`, `i = 0 .. 6`. -/
def Descriptor.times (d : Descriptor) : List TimeOfDay :=
  (List.range 7).map fun i => ⟨d.item (2 * i), d.item (2 * i + 1)⟩

/-! ### The opcode map -/

/-- One row of R60: the mnemonic, `SEL` match and mask, and the operands R53 reads. -/
structure MapRow where
  mnemonic : String
  pattern : Selector
  mask : Selector
  operands : Descriptor → Instr

/-- Whether the row's command is the one the selector names (R61). -/
def MapRow.matches (r : MapRow) (sel : Selector) : Bool := sel &&& r.mask == r.pattern

/-- Rows 128 to 136 of R60. -/
def opcodeMapLow : List MapRow := [
  ⟨"Start", 0x080, 0x0FF, fun _ => .start⟩,
  ⟨"Baud", 0x081, 0x0FF, fun d => .baud d.b0⟩,
  ⟨"Safe", 0x083, 0x0FF, fun _ => .safe⟩,
  ⟨"Full", 0x084, 0x0FF, fun _ => .full⟩,
  ⟨"Power", 0x085, 0x0FF, fun _ => .power⟩,
  ⟨"Spot", 0x086, 0x0FF, fun _ => .spot⟩,
  ⟨"Clean", 0x087, 0x0FF, fun _ => .clean⟩,
  ⟨"Max", 0x088, 0x1FF, fun _ => .max⟩,
  ⟨"Demo", 0x188, 0x1FF, fun d => .demo d.b0⟩]

/-- Rows 137 to 146 of R60. -/
def opcodeMapMiddle : List MapRow := [
  ⟨"Drive", 0x089, 0x0FF, fun d => .drive d.w0 d.w1⟩,
  ⟨"Motors", 0x08A, 0x0FF, fun d => .motors d.flags⟩,
  ⟨"LEDs", 0x08B, 0x0FF, fun d => .leds d.flags d.b0 d.b1⟩,
  ⟨"Song", 0x08C, 0x0FF, fun d => .song d.b0 d.len d.notes⟩,
  ⟨"Play", 0x08D, 0x0FF, fun d => .play d.b0⟩,
  ⟨"Sensors", 0x08E, 0x0FF, fun d => .sensors d.b0⟩,
  ⟨"SeekDock", 0x08F, 0x0FF, fun _ => .seekDock⟩,
  ⟨"PWMMotors", 0x090, 0x0FF, fun d => .pwmMotors d.b0 d.b1 d.b2⟩,
  ⟨"DriveDirect", 0x091, 0x0FF, fun d => .driveDirect d.w0 d.w1⟩,
  ⟨"DrivePWM", 0x092, 0x0FF, fun d => .drivePWM d.w0 d.w1⟩]

/-- Rows 147 to 168 of R60. -/
def opcodeMapHigh : List MapRow := [
  ⟨"DigitalOutput", 0x093, 0x0FF, fun d => .digitalOutput d.flags⟩,
  ⟨"Stream", 0x094, 0x0FF, fun d => .stream (d.items d.len.toNat)⟩,
  ⟨"QueryList", 0x095, 0x0FF, fun d => .queryList (d.items d.len.toNat)⟩,
  ⟨"PauseResumeStream", 0x096, 0x0FF, fun d => .pauseResumeStream (d.flags.getLsbD 0)⟩,
  ⟨"SendIR", 0x097, 0x0FF, fun d => .sendIR d.b0⟩,
  ⟨"SchedulingLEDs", 0x0A2, 0x0FF, fun d => .schedulingLEDs d.b0 d.flags⟩,
  ⟨"DigitLEDsRaw", 0x0A3, 0x0FF, fun d => .digitLEDsRaw d.b0 d.b1 d.b2 d.b3⟩,
  ⟨"DigitLEDsASCII", 0x0A4, 0x0FF, fun d => .digitLEDsASCII (d.items d.len.toNat)⟩,
  ⟨"Buttons", 0x0A5, 0x0FF, fun d => .buttons d.flags⟩,
  ⟨"Schedule", 0x0A7, 0x0FF, fun d => .schedule d.flags d.times⟩,
  ⟨"SetDateTime", 0x0A8, 0x0FF, fun d => .setDateTime d.b0 d.b1 d.b2⟩]

/-- The complete map of R60: thirty rows. -/
def opcodeMap : List MapRow := opcodeMapLow ++ opcodeMapMiddle ++ opcodeMapHigh

/-! ### The decoder -/

/-- Why a descriptor is no command. -/
inductive DecodeReject where
  /-- No row of R60 matches the selector (R62). -/
  | illegalSelector (sel : Selector)
  deriving DecidableEq, Repr

/-- R61: the command of the row that matches the selector; with no such row the selector is illegal. -/
def decode (d : Descriptor) : Except DecodeReject Instr :=
  match opcodeMap.find? (fun r => r.matches d.sel) with
  | some r => .ok (r.operands d)
  | none => .error (.illegalSelector d.sel)

/-! ### The encoder -/

/-- `LIST` holding `l` from index 0 on and zeros after it (log 8). -/
def padList (l : List Byte) : Vector Byte 255 :=
  ⟨⟨(l ++ List.replicate 255 0).take 255⟩, by
    simp only [List.size_toArray, List.length_take, List.length_append, List.length_replicate]; omega⟩

/-- A descriptor with the given opcode and every other field 0. -/
def Descriptor.ofOp (op : Byte) : Descriptor :=
  { op := op, var := false, w0 := 0, w1 := 0, b0 := 0, b1 := 0, b2 := 0, b3 := 0, flags := 0, len := 0, list := padList [] }

/-- The descriptor that presents a command (R53). Fields the command does not read are 0 (log 8; R64 lets them hold
anything). -/
def encode : Instr → Descriptor
  | .start => .ofOp 128
  | .baud code => { Descriptor.ofOp 129 with b0 := code }
  | .safe => .ofOp 131
  | .full => .ofOp 132
  | .power => .ofOp 133
  | .spot => .ofOp 134
  | .clean => .ofOp 135
  | .max => .ofOp 136
  | .demo id => { Descriptor.ofOp 136 with var := true, b0 := id }
  | .drive velocity radius => { Descriptor.ofOp 137 with w0 := velocity, w1 := radius }
  | .motors flags => { Descriptor.ofOp 138 with flags := flags }
  | .leds flags color intensity => { Descriptor.ofOp 139 with flags := flags, b0 := color, b1 := intensity }
  | .song slot count notes =>
    { Descriptor.ofOp 140 with b0 := slot, len := count, list := padList (notes.flatMap fun n => [n.number, n.duration]) }
  | .play slot => { Descriptor.ofOp 141 with b0 := slot }
  | .sensors packetId => { Descriptor.ofOp 142 with b0 := packetId }
  | .seekDock => .ofOp 143
  | .pwmMotors main side vacuum => { Descriptor.ofOp 144 with b0 := main, b1 := side, b2 := vacuum }
  | .driveDirect right left => { Descriptor.ofOp 145 with w0 := right, w1 := left }
  | .drivePWM right left => { Descriptor.ofOp 146 with w0 := right, w1 := left }
  | .digitalOutput flags => { Descriptor.ofOp 147 with flags := flags }
  | .stream ids => { Descriptor.ofOp 148 with len := BitVec.ofNat 8 ids.length, list := padList ids }
  | .queryList ids => { Descriptor.ofOp 149 with len := BitVec.ofNat 8 ids.length, list := padList ids }
  | .pauseResumeStream resume => { Descriptor.ofOp 150 with flags := (BitVec.ofBool resume).setWidth 8 }
  | .sendIR byte => { Descriptor.ofOp 151 with b0 := byte }
  | .schedulingLEDs weekday flags => { Descriptor.ofOp 162 with b0 := weekday, flags := flags }
  | .digitLEDsRaw d0 d1 d2 d3 => { Descriptor.ofOp 163 with b0 := d0, b1 := d1, b2 := d2, b3 := d3 }
  | .digitLEDsASCII message => { Descriptor.ofOp 164 with len := BitVec.ofNat 8 message.length, list := padList message }
  | .buttons flags => { Descriptor.ofOp 165 with flags := flags }
  | .schedule flags times =>
    { Descriptor.ofOp 167 with flags := flags, list := padList (times.flatMap fun t => [t.hour, t.minute]) }
  | .setDateTime weekday hour minute => { Descriptor.ofOp 168 with b0 := weekday, b1 := hour, b2 := minute }

/-- R67, R135: the real command each pseudo-command stands for. -/
def PseudoCommand.expand : PseudoCommand → Instr
  | .halt => .safe
  | .disableSchedule => .schedule 0 (List.replicate 7 ⟨0, 0⟩)
  | .pauseStream => .pauseResumeStream false
  | .resumeStream => .pauseResumeStream true

/-! ### The table's words -/

/-- The descriptor with the selector in bits 8..0 of `w` and every operand 0: spec/opcode_table.json numbers the bits
`SEL[8] = VAR, SEL[7:0] = OP` and gives the operands no bits (log 9). -/
def Descriptor.ofTableWord (nbits w : Nat) : Descriptor :=
  let sel := w % 2 ^ nbits
  { Descriptor.ofOp (BitVec.ofNat 8 sel) with var := sel.testBit 8 }

/-- The command the decoder reads from a word of the opcode table. -/
def decodeTableWord (nbits w : Nat) : Option Instr :=
  match decode (.ofTableWord nbits w) with
  | .ok i => some i
  | .error _ => none

end Sys2Proof
end

