-- ==== Sys2Proof/Machine/State.lean ====
section
/-! DEFINITION. The state: the eight elements of OIFE (10_state.md R10), the TX stream (20_memory.md R30), the transport
agent at the boundary (20_memory.md R40), the parameters (00_scope.md R6) and the coming inputs (10_state.md R16), as
plain data; and the state right after reset (10_state.md R21). -/

namespace Sys2Proof.Machine

/-! ### The result and the phase -/

/-- `PH` (R13). -/
inductive Phase where
  | idle
  | emit
  deriving DecidableEq, Repr

/-- `RES_KIND` (R15). Codes 5 to 7 do not exist (U10). -/
inductive ResKind where
  | none
  | ok
  | validation
  | transport
  | illegal
  deriving DecidableEq, Repr

/-! ### The inputs -/

/-- The transport's answer signals `tx_ready`, `tx_error`, `tx_ecode` (R16), any values at any edge (log 17). -/
structure TxWires where
  ready : Bool
  error : Bool
  ecode : Byte
  deriving DecidableEq, Repr

/-- The values of the input signals at one clock edge (R16, R170). `cmd` is `cmd_valid` with the descriptor. -/
structure PortSample where
  rst : Bool
  cmd : Option Descriptor
  tx : TxWires
  deriving DecidableEq, Repr

/-- The transport's operations the host calls directly (R40 to R45, R161), each with what the physical link answers:
`none` is success, `some e` a failure with the code `e` (log 13). `write` is the TX port itself (R43). -/
inductive TransportCall where
  | connect (closing opening : Option Byte)
  | finalize (closing : Option Byte)
  | readOneByte (value : Byte) (failure : Option Byte)
  | identity
  deriving DecidableEq, Repr

/-- What the outside world does next: the input signals at a clock edge, or a call of a transport operation between
two edges (log 1, log 18). -/
inductive Event where
  | edge (p : PortSample)
  | call (c : TransportCall)
  deriving DecidableEq, Repr

/-! ### The transport agent -/

/-- The error set `connect` and `finalize` return: the close failure and the open failure, each if there was one (R41,
R42, log 13). -/
structure CallErrors where
  closing : Option Byte
  opening : Option Byte
  deriving DecidableEq, Repr

/-- What the transport operation last called returned to the host. -/
inductive TransportReturn where
  | none
  | errors (e : CallErrors)
  | byte (value : Byte) (failure : Option Byte)
  | identity (name port : String)
  deriving DecidableEq, Repr

/-- The transport agent at the boundary (R40). -/
structure Transport where
  /-- The channel handle: none, or an open channel (R40). -/
  chan : Option Nat
  /-- How many channels were opened so far: the next fresh handle (log 12). -/
  opened : Nat
  /-- `connect` or `finalize` was called during the frame in flight (R48, log 11). -/
  callInFrame : Bool
  /-- What the last operation returned. -/
  lastReturn : TransportReturn
  deriving DecidableEq, Repr

/-! ### The state -/

/-- The machine. -/
structure State where
  /-- `PH` (R13). -/
  ph : Phase
  /-- `FB[0 .. FLEN-1]`, the meaningful bytes of the frame buffer; `FLEN` is its length (R12, U1, log 3). -/
  fb : List Byte
  /-- `FIDX` (R14). -/
  fidx : Count
  /-- `RES_KIND` (R15). -/
  resKind : ResKind
  /-- `ERRSET` (R15). -/
  errset : ErrSet
  /-- `RES_SENT` (R15). -/
  resSent : Count
  /-- `RES_TXERR` (R15). -/
  resTxerr : Byte
  /-- The strobe `res_valid` of the step last taken (R16, log 4). No rule reads it. -/
  resValid : Bool
  /-- The TX stream, oldest byte first (R30, log 5). -/
  tx : List Byte
  /-- The transport agent (R40). -/
  transport : Transport
  /-- The parameters (R6, log 6). -/
  params : Params
  /-- What the outside world does next, in order; after it the inputs stay low (log 1). -/
  env : List Event
  deriving DecidableEq, Repr

/-- The transport handle when newly made: no channel (R40). -/
def Transport.fresh : Transport := { chan := none, opened := 0, callInFrame := false, lastReturn := .none }

/-- The machine right after reset: R21 for the eight elements and `res_valid`; the TX stream empty (R30); a new transport
handle (R40); the parameters of R6 (log 6); no input yet (log 1). -/
def State.reset : State :=
  { ph := .idle, fb := [], fidx := 0, resKind := .none, errset := 0, resSent := 0, resTxerr := 0, resValid := false,
    tx := [], transport := .fresh, params := .default, env := [] }

/-! ### How a step can stop -/

/-- The faults. -/
inductive Fault where
  /-- Raised by the beat step when `PH` = EMIT and `FB[FIDX]` is no byte of the frame. R14 says `FIDX < FLEN` while
  `PH` = EMIT, so no step reaches such a state. Safe (log 14). -/
  | noByteOffered
  deriving DecidableEq, Repr

/-- The refusals. -/
inductive Refusal where
  /-- Raised by an arm of `exec` whose command has no meaning yet; no arm does. Safe. -/
  | notModelled (mnemonic : String)
  deriving DecidableEq, Repr

/-- What a step answers. -/
abbrev Result := Host.Outcome State Fault Refusal

end Sys2Proof.Machine
end

