-- ==== Sys2Proof/Machine/Ops.lean ====
section
/-! DEFINITION. The shared operations of the steps (10_state.md R17): accepting a command, the three ways a command ends
in an error (validation, illegal selector, transport), the beat, the reset step, waiting. OIFE has no handler and no
return instruction: an error is a result, and the block is idle again (60_exceptions.md R150, R154). -/

namespace Sys2Proof.Machine

/-- What a command's rule gives: the violation set `V` and the frame `F` (R17). -/
structure CommandRule where
  violations : ErrSet
  frame : List Byte
  deriving DecidableEq, Repr

/-- `FLEN`: the number of meaningful bytes of `FB` (R12). -/
def State.flen (s : State) : Count := BitVec.ofNat 9 s.fb.length

/-- The accept step of a command without violation: the frame is loaded and its emission begins (R17.1, R12, R14, R154).
The frame now in flight has seen no lifecycle call yet (log 11). -/
def State.loadFrame (f : List Byte) (s : State) : State :=
  { s with
    ph := .emit, fb := f, fidx := 0, resKind := .none, errset := 0, resSent := 0, resTxerr := 0, resValid := false
    transport := { s.transport with callInFrame := false } }

/-- The accept step of a command with violations: nothing is written but the result, and `FLEN <- 0` (R17.1, R142,
R145). -/
def State.refuseViolations (v : ErrSet) (s : State) : State :=
  { s with fb := [], resKind := .validation, errset := v, resSent := 0, resTxerr := 0, resValid := true }

/-- The accept step of an illegal selector (R17.1, R146). -/
def State.refuseIllegal (s : State) : State :=
  { s with fb := [], resKind := .illegal, errset := 0, resSent := 0, resTxerr := 0, resValid := true }

/-- The accept step of a legal selector, given what the command's rule says (R17.1, R142): the meaning of every command.
`step` takes it only when `PH` = IDLE (log 15). -/
def accept (r : CommandRule) (s : State) : Result :=
  .next (if r.violations = 0 then s.loadFrame r.frame else s.refuseViolations r.violations)

/-- The fail step, the block's whole trap entry: the frame is abandoned, the count of acknowledged bytes and the
transport's code are recorded, the block is idle (R17.3, R150, R151). -/
def State.failTransport (code : Byte) (s : State) : State :=
  { s with ph := .idle, resKind := .transport, resSent := s.fidx, resTxerr := code, resValid := true }

/-- A beat before the last byte: the byte joins the TX stream (R17.2, R30). -/
def State.beatMore (b : Byte) (s : State) : State :=
  { s with fidx := s.fidx + 1, tx := s.tx ++ [b], resValid := false }

/-- The beat of the last byte: the command ends OK (R17.2). -/
def State.beatLast (b : Byte) (s : State) : State :=
  { s with
    ph := .idle, fidx := s.flen, resKind := .ok, resSent := s.flen, tx := s.tx ++ [b], resValid := true }

/-- The beat step: the transport takes `FB[FIDX]` (R17.2). Without such a byte the model faults (log 14). -/
def beat (s : State) : Result :=
  match s.fb[s.fidx.toNat]? with
  | none => .fault .noByteOffered
  | some b => .next (if s.fidx.toNat + 1 = s.fb.length then s.beatLast b else s.beatMore b)

/-- The reset step: the values of R21; the TX stream, the transport's channel and the parameters are untouched (R17.4,
R170 to R172). -/
def State.resetStep (s : State) : State :=
  { s with
    ph := .idle, fb := [], fidx := 0, resKind := .none, errset := 0, resSent := 0, resTxerr := 0, resValid := false }

/-- No step is enabled: nothing changes (R17), and no strobe is out (R16). -/
def State.wait (s : State) : State := { s with resValid := false }

end Sys2Proof.Machine
end

