-- ==== Sys2Proof/Machine/Bitfields.lean ====
section
/-! DEFINITION. The bitfield commands (43_bitfield_commands.md R113 to R119): flag `i` of the protocol table is `FLAGS[i]`,
higher bits are dropped, nothing can violate. -/

namespace Sys2Proof.Machine

/-- Motors (R114): side brush, vacuum, main brush, side brush clockwise, main brush direction on bits 0 to 4. -/
def ruleMotors (flags : Byte) : CommandRule := { violations := 0, frame := [138, pack Limits.kMotors flags] }

/-- LEDs (R115): bitfield first, then color and intensity. -/
def ruleLeds (p : Params) (flags color intensity : Byte) : CommandRule :=
  { violations := 0, frame := [139, pack p.kLeds flags, color, intensity] }

/-- DigitalOutput (R116). -/
def ruleDigitalOutput (p : Params) (flags : Byte) : CommandRule :=
  { violations := 0, frame := [147, pack p.kDigout flags] }

/-- SchedulingLEDs (R117): the weekday byte as it is, then the bitfield. -/
def ruleSchedulingLEDs (p : Params) (weekday flags : Byte) : CommandRule :=
  { violations := 0, frame := [162, weekday, pack p.kSchedLeds flags] }

/-- Buttons (R118). -/
def ruleButtons (p : Params) (flags : Byte) : CommandRule := { violations := 0, frame := [165, pack p.kButtons flags] }

/-- Motors (R114). -/
def execMotors (flags : Byte) (s : State) : Result := accept (ruleMotors flags) s
/-- LEDs (R115). -/
def execLeds (flags color intensity : Byte) (s : State) : Result := accept (ruleLeds s.params flags color intensity) s
/-- DigitalOutput (R116). -/
def execDigitalOutput (flags : Byte) (s : State) : Result := accept (ruleDigitalOutput s.params flags) s
/-- SchedulingLEDs (R117). -/
def execSchedulingLEDs (weekday flags : Byte) (s : State) : Result := accept (ruleSchedulingLEDs s.params weekday flags) s
/-- Buttons (R118). -/
def execButtons (flags : Byte) (s : State) : Result := accept (ruleButtons s.params flags) s

end Sys2Proof.Machine
end

