-- ==== Sys2Proof/Machine/Bytes.lean ====
section
/-! DEFINITION. The byte-operand commands (41_byte_commands.md R90 to R98): operand bytes copied in order, checked only
where the spec gives a range. -/

namespace Sys2Proof.Machine

/-- `BRUSH_PWM_VALID` (R6, R95). -/
def brushValid (p : Params) (b : Byte) : Bool := !p.brushRefused.contains b

/-- Baud (R91). -/
def ruleBaud (code : Byte) : CommandRule :=
  { violations := violateIf 0 (decide (code.toNat > Limits.baudMax)), frame := [129, code] }

/-- Demo (R92). -/
def ruleDemo (id : Byte) : CommandRule := { violations := 0, frame := [136, id] }

/-- Play (R93): `slot > 3` is bit 0. -/
def rulePlay (slot : Byte) : CommandRule :=
  { violations := violateIf 0 (decide (slot.toNat ≥ Limits.songSlots)), frame := [141, slot] }

/-- Sensors (R94). -/
def ruleSensors (packetId : Byte) : CommandRule := { violations := 0, frame := [142, packetId] }

/-- PWMMotors (R95). -/
def rulePwmMotors (p : Params) (main side vacuum : Byte) : CommandRule :=
  { violations :=
      violateIf 0 (!brushValid p main) ||| violateIf 1 (!brushValid p side) |||
      violateIf 2 (decide (vacuum.toNat > Limits.vacuumMax))
    frame := [144, main, side, vacuum] }

/-- PauseResumeStream (R96): the payload is `zext_8(FLAGS[0])`. -/
def rulePauseResumeStream (resume : Bool) : CommandRule :=
  { violations := 0, frame := [150, (BitVec.ofBool resume).setWidth 8] }

/-- SendIR (R97). -/
def ruleSendIR (byte : Byte) : CommandRule := { violations := 0, frame := [151, byte] }

/-- DigitLEDsRaw (R98). -/
def ruleDigitLEDsRaw (d0 d1 d2 d3 : Byte) : CommandRule := { violations := 0, frame := [163, d0, d1, d2, d3] }

/-- Baud (R91). -/
def execBaud (code : Byte) (s : State) : Result := accept (ruleBaud code) s
/-- Demo (R92). -/
def execDemo (id : Byte) (s : State) : Result := accept (ruleDemo id) s
/-- Play (R93). -/
def execPlay (slot : Byte) (s : State) : Result := accept (rulePlay slot) s
/-- Sensors (R94). -/
def execSensors (packetId : Byte) (s : State) : Result := accept (ruleSensors packetId) s
/-- PWMMotors (R95). -/
def execPwmMotors (main side vacuum : Byte) (s : State) : Result := accept (rulePwmMotors s.params main side vacuum) s
/-- PauseResumeStream (R96). -/
def execPauseResumeStream (resume : Bool) (s : State) : Result := accept (rulePauseResumeStream resume) s
/-- SendIR (R97). -/
def execSendIR (byte : Byte) (s : State) : Result := accept (ruleSendIR byte) s
/-- DigitLEDsRaw (R98). -/
def execDigitLEDsRaw (d0 d1 d2 d3 : Byte) (s : State) : Result := accept (ruleDigitLEDsRaw d0 d1 d2 d3) s

end Sys2Proof.Machine
end

