-- ==== Sys2Proof/Machine/Drive.lean ====
section
/-! DEFINITION. The signed 16-bit commands (42_drive_commands.md R105 to R111): both operands checked against their ranges,
always, and sent as two big-endian pairs. -/

namespace Sys2Proof.Machine

/-- A radius Drive takes: in range, or one of the two values that mean "drive straight" (R106). -/
def radiusOk (radius : Word) : Bool :=
  inRange radius Limits.radMin Limits.radMax || Limits.radStraight.contains radius.toInt

/-- Drive (R106). -/
def ruleDrive (velocity radius : Word) : CommandRule :=
  { violations := violateIf 0 (!inRange velocity Limits.velMin Limits.velMax) ||| violateIf 1 (!radiusOk radius)
    frame := 137 :: wordPair velocity radius }

/-- DriveDirect (R107). -/
def ruleDriveDirect (right left : Word) : CommandRule :=
  { violations :=
      violateIf 0 (!inRange right Limits.velMin Limits.velMax) ||| violateIf 1 (!inRange left Limits.velMin Limits.velMax)
    frame := 145 :: wordPair right left }

/-- DrivePWM (R108). -/
def ruleDrivePWM (right left : Word) : CommandRule :=
  { violations :=
      violateIf 0 (!inRange right Limits.pwmMin Limits.pwmMax) ||| violateIf 1 (!inRange left Limits.pwmMin Limits.pwmMax)
    frame := 146 :: wordPair right left }

/-- Drive (R106). -/
def execDrive (velocity radius : Word) (s : State) : Result := accept (ruleDrive velocity radius) s
/-- DriveDirect (R107). -/
def execDriveDirect (right left : Word) (s : State) : Result := accept (ruleDriveDirect right left) s
/-- DrivePWM (R108). -/
def execDrivePWM (right left : Word) (s : State) : Result := accept (ruleDrivePWM right left) s

end Sys2Proof.Machine
end

