-- ==== Sys2Proof/Machine/Lists.lean ====
section
/-! DEFINITION. The variable-length and text commands (44_list_commands.md R123 to R129). -/

namespace Sys2Proof.Machine

/-- Song (R125): bits 0 to 15 the invalid ones of the first sixteen notes, bit 16 the slot, bit 17 more than sixteen
notes. The frame is used only without violation, and then `notes` are all `count` notes. -/
def ruleSong (slot count : Byte) (notes : List Note) : CommandRule :=
  { violations :=
      noteViolations 0 (notes.take Limits.songMaxNotes) ||| violateIf 16 (decide (slot.toNat ≥ Limits.songSlots)) |||
      violateIf 17 (decide (count.toNat > Limits.songMaxNotes))
    frame := [140, slot, count] ++ notes.flatMap noteBytes }

/-- Stream (R126): the computed count, then the identifiers. -/
def ruleStream (ids : List Byte) : CommandRule := { violations := 0, frame := [148, countByte ids] ++ ids }

/-- QueryList (R127): the count byte is emitted (90_conflicts.md C1). -/
def ruleQueryList (ids : List Byte) : CommandRule := { violations := 0, frame := [149, countByte ids] ++ ids }

/-- DigitLEDsASCII (R129). -/
def ruleDigitLEDsASCII (message : List Byte) : CommandRule := { violations := 0, frame := 164 :: pad4 message }

/-- Song (R125). -/
def execSong (slot count : Byte) (notes : List Note) (s : State) : Result := accept (ruleSong slot count notes) s
/-- Stream (R126). -/
def execStream (ids : List Byte) (s : State) : Result := accept (ruleStream ids) s
/-- QueryList (R127). -/
def execQueryList (ids : List Byte) (s : State) : Result := accept (ruleQueryList ids) s
/-- DigitLEDsASCII (R129). -/
def execDigitLEDsASCII (message : List Byte) (s : State) : Result := accept (ruleDigitLEDsASCII message) s

end Sys2Proof.Machine
end

