-- ==== Sys2Proof/Machine/Modes.lean ====
section
/-! DEFINITION. The zero-payload commands (40_mode_commands.md R80 to R88): no operand, no violation, the frame is the
opcode alone. -/

namespace Sys2Proof.Machine

/-- The rule common to the family (R80): `V <- 0; F <- [op]`. -/
def ruleOpcodeOnly (op : Byte) : CommandRule := { violations := 0, frame := [op] }

/-- Start (R81). -/
def ruleStart : CommandRule := ruleOpcodeOnly 128
/-- Safe (R82). -/
def ruleSafe : CommandRule := ruleOpcodeOnly 131
/-- Full (R83). -/
def ruleFull : CommandRule := ruleOpcodeOnly 132
/-- Power (R84). -/
def rulePower : CommandRule := ruleOpcodeOnly 133
/-- Spot (R85). -/
def ruleSpot : CommandRule := ruleOpcodeOnly 134
/-- Clean (R86). -/
def ruleClean : CommandRule := ruleOpcodeOnly 135
/-- Max (R87). -/
def ruleMax : CommandRule := ruleOpcodeOnly 136
/-- SeekDock (R88). -/
def ruleSeekDock : CommandRule := ruleOpcodeOnly 143

/-- Start (R81). -/
def execStart (s : State) : Result := accept ruleStart s
/-- Safe (R82). -/
def execSafe (s : State) : Result := accept ruleSafe s
/-- Full (R83). -/
def execFull (s : State) : Result := accept ruleFull s
/-- Power (R84). -/
def execPower (s : State) : Result := accept rulePower s
/-- Spot (R85). -/
def execSpot (s : State) : Result := accept ruleSpot s
/-- Clean (R86). -/
def execClean (s : State) : Result := accept ruleClean s
/-- Max (R87). -/
def execMax (s : State) : Result := accept ruleMax s
/-- SeekDock (R88). -/
def execSeekDock (s : State) : Result := accept ruleSeekDock s

end Sys2Proof.Machine
end

