-- ==== Sys2Proof/Machine/Schedule.lean ====
section
/-! DEFINITION. The scheduler commands (45_schedule_commands.md R133 to R137): day 0 is Sunday. -/

namespace Sys2Proof.Machine

/-- The largest weekday number, Saturday (R137). -/
abbrev weekdayMax : Nat := Limits.days - 1

/-- The fifteen payload bytes: the day bits, then hour and minute of each day, zero for an inactive one (R133). -/
def schedulePayload (flags : Byte) (times : List TimeOfDay) : List Byte :=
  pack Limits.days flags :: dayTimes flags 0 times

/-- Schedule (R134). -/
def ruleSchedule (flags : Byte) (times : List TimeOfDay) : CommandRule :=
  { violations := dayViolations flags 0 times, frame := 167 :: schedulePayload flags times }

/-- SetDateTime (R136). -/
def ruleSetDateTime (weekday hour minute : Byte) : CommandRule :=
  { violations :=
      violateIf 0 (decide (weekday.toNat > weekdayMax)) ||| violateIf 1 (decide (hour.toNat > Limits.hourMax)) |||
      violateIf 2 (decide (minute.toNat > Limits.minuteMax))
    frame := [168, weekday, hour, minute] }

/-- Schedule (R134). -/
def execSchedule (flags : Byte) (times : List TimeOfDay) (s : State) : Result := accept (ruleSchedule flags times) s
/-- SetDateTime (R136). -/
def execSetDateTime (weekday hour minute : Byte) (s : State) : Result := accept (ruleSetDateTime weekday hour minute) s

end Sys2Proof.Machine
end

