-- ==== Sys2Proof/Machine/Dispatch.lean ====
section
/-! DEFINITION. One arm per command: the accept step of a decoded command (10_state.md R17.1). -/

namespace Sys2Proof.Machine

def exec (i : Instr) (s : State) : Host.Outcome State Fault Refusal :=
  match i with
  | .start => Sys2Proof.Machine.execStart s
  | .baud code => Sys2Proof.Machine.execBaud code s
  | .safe => Sys2Proof.Machine.execSafe s
  | .full => Sys2Proof.Machine.execFull s
  | .power => Sys2Proof.Machine.execPower s
  | .spot => Sys2Proof.Machine.execSpot s
  | .clean => Sys2Proof.Machine.execClean s
  | .max => Sys2Proof.Machine.execMax s
  | .demo id => Sys2Proof.Machine.execDemo id s
  | .drive velocity radius => Sys2Proof.Machine.execDrive velocity radius s
  | .motors flags => Sys2Proof.Machine.execMotors flags s
  | .leds flags color intensity => Sys2Proof.Machine.execLeds flags color intensity s
  | .song slot count notes => Sys2Proof.Machine.execSong slot count notes s
  | .play slot => Sys2Proof.Machine.execPlay slot s
  | .sensors packetId => Sys2Proof.Machine.execSensors packetId s
  | .seekDock => Sys2Proof.Machine.execSeekDock s
  | .pwmMotors main side vacuum => Sys2Proof.Machine.execPwmMotors main side vacuum s
  | .driveDirect right left => Sys2Proof.Machine.execDriveDirect right left s
  | .drivePWM right left => Sys2Proof.Machine.execDrivePWM right left s
  | .digitalOutput flags => Sys2Proof.Machine.execDigitalOutput flags s
  | .stream ids => Sys2Proof.Machine.execStream ids s
  | .queryList ids => Sys2Proof.Machine.execQueryList ids s
  | .pauseResumeStream resume => Sys2Proof.Machine.execPauseResumeStream resume s
  | .sendIR byte => Sys2Proof.Machine.execSendIR byte s
  | .schedulingLEDs weekday flags => Sys2Proof.Machine.execSchedulingLEDs weekday flags s
  | .digitLEDsRaw d0 d1 d2 d3 => Sys2Proof.Machine.execDigitLEDsRaw d0 d1 d2 d3 s
  | .digitLEDsASCII message => Sys2Proof.Machine.execDigitLEDsASCII message s
  | .buttons flags => Sys2Proof.Machine.execButtons flags s
  | .schedule flags times => Sys2Proof.Machine.execSchedule flags times s
  | .setDateTime weekday hour minute => Sys2Proof.Machine.execSetDateTime weekday hour minute s

end Sys2Proof.Machine
end

