-- ==== Sys2Proof/Machine/Ports.lean ====
section
/-! DEFINITION. The output signals as functions of state (10_state.md R16), the codes of the registers (R13, R15), and the
input samples that occur alone: nothing, a command, an acknowledgement, a failure, reset. -/

namespace Sys2Proof.Machine

/-- `PH` as its bit: IDLE = 0, EMIT = 1 (R10). -/
def Phase.code : Phase → BitVec 1
  | .idle => 0
  | .emit => 1

/-- `RES_KIND` as its 3-bit code (R15). -/
def ResKind.code : ResKind → BitVec 3
  | .none => 0
  | .ok => 1
  | .validation => 2
  | .transport => 3
  | .illegal => 4

/-- `cmd_ready` (R16). -/
def State.cmdReady (s : State) : Bool := s.ph == .idle

/-- `tx_valid` (R16). -/
def State.txValid (s : State) : Bool := s.ph == .emit

/-- `tx_data` (R16): `FB[FIDX]` in EMIT; otherwise there is nothing to read (U2, log 19). -/
def State.txData (s : State) : Option Byte := if s.ph == .emit then s.fb[s.fidx.toNat]? else none

/-- `tx_last` (R16): `PH` = EMIT and `FIDX` = `FLEN` - 1. -/
def State.txLast (s : State) : Bool := s.ph == .emit && s.fidx.toNat + 1 == s.fb.length

/-- `res_kind` (R16). -/
def State.resKindOut (s : State) : BitVec 3 := s.resKind.code

/-- A transport that does not answer. -/
def TxWires.silent : TxWires := { ready := false, error := false, ecode := 0 }

/-- All inputs low. -/
def PortSample.quiet : PortSample := { rst := false, cmd := none, tx := .silent }

/-- `cmd_valid` with a descriptor. -/
def PortSample.present (d : Descriptor) : PortSample := { PortSample.quiet with cmd := some d }

/-- `tx_ready` alone: `ack` of 95_test_vectors.md. -/
def PortSample.ack : PortSample := { PortSample.quiet with tx := { ready := true, error := false, ecode := 0 } }

/-- `tx_error` with a code: `fail(c)` of 95_test_vectors.md. -/
def PortSample.fail (code : Byte) : PortSample :=
  { PortSample.quiet with tx := { ready := false, error := true, ecode := code } }

/-- `tx_ready` and `tx_error` together: `both(c)` of 95_test_vectors.md. -/
def PortSample.both (code : Byte) : PortSample :=
  { PortSample.quiet with tx := { ready := true, error := true, ecode := code } }

/-- `rst` asserted. -/
def PortSample.reset : PortSample := { PortSample.quiet with rst := true }

/-- The host presents a descriptor to an idle block at the next clock edge (log 2). -/
def State.presentNext (d : Descriptor) (s : State) : State :=
  { s with ph := .idle, env := .edge (.present d) :: s.env }

end Sys2Proof.Machine
end

