-- ==== Sys2Proof/Machine/Transport.lean ====
section
/-! DEFINITION. The transport agent at the boundary (20_memory.md R40 to R48): its answer to an offered byte and the
operations the host calls on it. What the physical link does is the environment's: the signals of the sample and the
results inside the call (log 1, log 13). -/

namespace Sys2Proof.Machine

/-- The signals the block sees while a byte is offered. With an open channel they are the link's. With no channel a write
fails ("channel not open", R43, R173), so an answer is never an acknowledgement (log 10); after a lifecycle call during
the frame R48 leaves every answer possible (log 11). -/
def Transport.answer (t : Transport) (w : TxWires) : TxWires :=
  if t.chan.isSome || t.callInFrame then w else { w with ready := false, error := w.ready || w.error }

/-- `connect()` (R41): a prior channel is closed and dropped whether or not closing failed, then a fresh one is opened;
both failures are returned. -/
def Transport.connect (inFlight : Bool) (closing opening : Option Byte) (t : Transport) : Transport :=
  { chan := if opening.isNone then some t.opened else none
    opened := if opening.isNone then t.opened + 1 else t.opened
    callInFrame := t.callInFrame || inFlight
    lastReturn := .errors { closing := if t.chan.isSome then closing else none, opening := opening } }

/-- `finalize()` (R42): an open channel is closed and the handle cleared even when closing failed; without one nothing
changes and no error is returned. -/
def Transport.finalize (inFlight : Bool) (closing : Option Byte) (t : Transport) : Transport :=
  { t with
    chan := none
    callInFrame := t.callInFrame || inFlight
    lastReturn := .errors { closing := if t.chan.isSome then closing else none, opening := none } }

/-- `read-one-byte()` (R44): returns what the link gives and changes nothing else. -/
def Transport.readOneByte (value : Byte) (failure : Option Byte) (t : Transport) : Transport :=
  { t with lastReturn := .byte value failure }

/-- The identity accessors (R45). -/
def Transport.identity (t : Transport) : Transport :=
  { t with lastReturn := .identity Config.transportName Config.transportPort }

/-- A call of a transport operation by the host. It changes the transport agent and nothing of the block (R161). -/
def State.call (c : TransportCall) (s : State) : State :=
  let inFlight := s.ph == .emit
  { s with
    resValid := false
    transport :=
      match c with
      | .connect closing opening => s.transport.connect inFlight closing opening
      | .finalize closing => s.transport.finalize inFlight closing
      | .readOneByte value failure => s.transport.readOneByte value failure
      | .identity => s.transport.identity }

end Sys2Proof.Machine
end

