-- ==== Sys2Proof/Machine/Edge.lean ====
section
/-! DEFINITION. Which step is taken (10_state.md R17): reset over everything, accept when IDLE with a command, beat or fail
when EMIT with an answer, else none. -/

namespace Sys2Proof.Machine

/-- The accept step: the selector is decoded, a legal command runs its rule, an illegal selector is refused (R17.1,
R152). -/
def acceptDescriptor (d : Descriptor) (s : State) : Result :=
  match decode d with
  | .ok i => exec i s
  | .error _ => .next s.refuseIllegal

/-- The step of the TX port in EMIT: `tx_error` wins over `tx_ready` (R17.2, R17.3, R150); without an answer the block
waits (R47). -/
def txStep (w : TxWires) (s : State) : Result :=
  if w.error then .next (s.failTransport w.ecode) else if w.ready then beat s else .next s.wait

/-- One clock edge (R17, R170). -/
def clockEdge (p : PortSample) (s : State) : Result :=
  if p.rst then .next s.resetStep
  else
    match s.ph with
    | .idle =>
      match p.cmd with
      | none => .next s.wait
      | some d => acceptDescriptor d s
    | .emit => txStep (s.transport.answer p.tx) s

/-- The next event of the outside world and what it makes of the machine. With none left the inputs stay low (log 1). -/
def takeEvent (s : State) : Result :=
  match s.env with
  | [] => clockEdge .quiet s
  | .edge p :: rest => clockEdge p { s with env := rest }
  | .call c :: rest => .next (({ s with env := rest } : State).call c)

end Sys2Proof.Machine
end

