-- ==== Sys2Proof/Machine/Step.lean ====
section
/-! DEFINITION. One step of the machine (10_state.md R17), and how the host of the pipeline presents a command. -/

namespace Sys2Proof.Machine

/-- One step: the next event of the outside world. -/
def step (s : State) : Host.Outcome State Fault Refusal := takeEvent s

/-- The command of a word of the opcode table presented on the command port, so that the very next step accepts it
(log 2, log 9). -/
def State.withFetchWord (s : State) (nbits w : Nat) : State := s.presentNext (.ofTableWord nbits w)

end Sys2Proof.Machine
end

