-- ==== Sys2Proof/Machine/Rules.lean ====
section
/-! DEFINITION. The rule of each command as a function of the command, for statements over all commands: the violation set
and the frame (10_state.md R17), the format and the frame length (30_encoding.md R52, R55, R60). -/

namespace Sys2Proof.Machine

/-- The rule the accept step runs for a command. -/
def ruleOf (p : Params) : Instr → CommandRule
  | .start => ruleStart
  | .baud code => ruleBaud code
  | .safe => ruleSafe
  | .full => ruleFull
  | .power => rulePower
  | .spot => ruleSpot
  | .clean => ruleClean
  | .max => ruleMax
  | .demo id => ruleDemo id
  | .drive velocity radius => ruleDrive velocity radius
  | .motors flags => ruleMotors flags
  | .leds flags color intensity => ruleLeds p flags color intensity
  | .song slot count notes => ruleSong slot count notes
  | .play slot => rulePlay slot
  | .sensors packetId => ruleSensors packetId
  | .seekDock => ruleSeekDock
  | .pwmMotors main side vacuum => rulePwmMotors p main side vacuum
  | .driveDirect right left => ruleDriveDirect right left
  | .drivePWM right left => ruleDrivePWM right left
  | .digitalOutput flags => ruleDigitalOutput p flags
  | .stream ids => ruleStream ids
  | .queryList ids => ruleQueryList ids
  | .pauseResumeStream resume => rulePauseResumeStream resume
  | .sendIR byte => ruleSendIR byte
  | .schedulingLEDs weekday flags => ruleSchedulingLEDs p weekday flags
  | .digitLEDsRaw d0 d1 d2 d3 => ruleDigitLEDsRaw d0 d1 d2 d3
  | .digitLEDsASCII message => ruleDigitLEDsASCII message
  | .buttons flags => ruleButtons p flags
  | .schedule flags times => ruleSchedule flags times
  | .setDateTime weekday hour minute => ruleSetDateTime weekday hour minute

/-- The payload format of a command (R53, R60). -/
def formatOf : Instr → Format
  | .start | .safe | .full | .power | .spot | .clean | .max | .seekDock => .Z
  | .baud _ | .demo _ | .motors _ | .play _ | .sensors _ | .digitalOutput _ | .pauseResumeStream _ | .sendIR _
  | .buttons _ => .B1
  | .schedulingLEDs _ _ => .B2
  | .leds _ _ _ | .pwmMotors _ _ _ | .setDateTime _ _ _ => .B3
  | .digitLEDsRaw _ _ _ _ | .digitLEDsASCII _ => .B4
  | .drive _ _ | .driveDirect _ _ | .drivePWM _ _ => .W2
  | .stream _ | .queryList _ => .L1
  | .song _ _ _ => .L2
  | .schedule _ _ => .S15

/-- `LEN` of the three list commands (R53, R55). -/
def listLen : Instr → Nat
  | .song _ count _ => count.toNat
  | .stream ids | .queryList ids => ids.length
  | .start | .baud _ | .safe | .full | .power | .spot | .clean | .max | .demo _ | .drive _ _ | .motors _ | .leds _ _ _
  | .play _ | .sensors _ | .seekDock | .pwmMotors _ _ _ | .driveDirect _ _ | .drivePWM _ _ | .digitalOutput _
  | .pauseResumeStream _ | .sendIR _ | .schedulingLEDs _ _ | .digitLEDsRaw _ _ _ _ | .digitLEDsASCII _ | .buttons _
  | .schedule _ _ | .setDateTime _ _ _ => 0

/-- The length of a frame of a format, given `LEN` (R55). -/
def frameLength : Format → Nat → Nat
  | .Z, _ => 1
  | .B1, _ => 2
  | .B2, _ => 3
  | .B3, _ => 4
  | .B4, _ => 5
  | .W2, _ => 5
  | .S15, _ => 16
  | .L1, n => 2 + n
  | .L2, n => 3 + 2 * n

end Sys2Proof.Machine
end

