-- ==== Sys2Proof/Machine/Reader.lean ====
section
/-! DEFINITION. A reader of the TX stream, which cuts it into whole frames (30_encoding.md R56). It is no part of the
block: the block reads nothing (20_memory.md R31). -/

namespace Sys2Proof.Machine

/-- The format of the frames that begin with a byte; opcode 136 needs `VAR` (R56, R60). A byte that begins no frame has
none (log 21). -/
def formatOfOpcode (var : Bool) (op : Byte) : Option Format :=
  match op.toNat with
  | 128 | 131 | 132 | 133 | 134 | 135 | 143 => some .Z
  | 136 => some (if var then .B1 else .Z)
  | 129 | 138 | 141 | 142 | 147 | 150 | 151 | 165 => some .B1
  | 162 => some .B2
  | 139 | 144 | 168 => some .B3
  | 163 | 164 => some .B4
  | 137 | 145 | 146 => some .W2
  | 148 | 149 => some .L1
  | 140 => some .L2
  | 167 => some .S15
  | _ => none

/-- The length of the frame at the head of the stream: opcodes 148 and 149 read the next byte, opcode 140 the second next
(R56). -/
def headFrameLength (var : Bool) : List Byte → Option Nat
  | [] => none
  | op :: rest =>
    match formatOfOpcode var op with
    | none => none
    | some .L1 => rest[0]?.map fun n => frameLength .L1 n.toNat
    | some .L2 => rest[1]?.map fun n => frameLength .L2 n.toNat
    | some f => some (frameLength f 0)

/-- The frame at the head of the stream and the rest, if a whole frame is there (R56). -/
def cutFrame (var : Bool) (stream : List Byte) : Option (List Byte × List Byte) :=
  match headFrameLength var stream with
  | none => none
  | some n => if n ≤ stream.length then some (stream.take n, stream.drop n) else none

end Sys2Proof.Machine
end

