-- ==== Sys2Proof/Safety.lean ====
section
/-! DEFINITION. The terms the claims use: what an accept step writes, element by element, in its two outcomes (10_state.md
R17.1); the invariant of the block (10_state.md R13 to R15, R18); runs of answered and delayed bytes (20_memory.md R47). -/

namespace Sys2Proof

/-! ### What a command reads -/

/-- The bytes `LIST[0 .. n-1]` as numbers. -/
def Descriptor.itemNats (d : Descriptor) (n : Nat) : List Nat := (d.items n).map fun b => b.toNat

/-- The hour and minute of the active days of a schedule, those of an inactive day left out (R133). -/
def Descriptor.activeTimes (d : Descriptor) : List Nat :=
  (List.range 7).flatMap fun i =>
    if d.flags.getLsbD i then [(d.item (2 * i)).toNat, (d.item (2 * i + 1)).toNat] else []

/-- The parts of a descriptor its command reads besides the selector (R53), flags cut to the command's flag count (R64). -/
def Descriptor.readFields (p : Params) (d : Descriptor) : List Nat :=
  match d.op.toNat with
  | 129 | 141 | 142 | 151 => [d.b0.toNat]
  | 136 => if d.var then [d.b0.toNat] else []
  | 137 | 145 | 146 => [d.w0.toNat, d.w1.toNat]
  | 138 => [d.flags.toNat % 2 ^ 5]
  | 139 => [d.flags.toNat % 2 ^ p.kLeds, d.b0.toNat, d.b1.toNat]
  | 140 => d.b0.toNat :: d.len.toNat :: d.itemNats (2 * min d.len.toNat 16)
  | 144 | 168 => [d.b0.toNat, d.b1.toNat, d.b2.toNat]
  | 147 => [d.flags.toNat % 2 ^ p.kDigout]
  | 148 | 149 => d.len.toNat :: d.itemNats d.len.toNat
  | 150 => [d.flags.toNat % 2]
  | 162 => [d.b0.toNat, d.flags.toNat % 2 ^ p.kSchedLeds]
  | 163 => [d.b0.toNat, d.b1.toNat, d.b2.toNat, d.b3.toNat]
  | 164 => d.len.toNat :: d.itemNats (min d.len.toNat 4)
  | 165 => [d.flags.toNat % 2 ^ p.kButtons]
  | 167 => d.flags.toNat % 2 ^ 7 :: d.activeTimes
  | _ => []

end Sys2Proof

namespace Sys2Proof.Machine

/-! ### The two outcomes of a legal command -/

/-- From `s` to `t` a command without violation was accepted with the frame `F` (R17.1): every element of R10, and nothing
on TX, the channel, the parameters or the coming inputs. That the new frame has seen no lifecycle call (`noCall`) is the
model's own bookkeeping (log 11). -/
structure AcceptedAs (F : List Byte) (s t : State) : Prop where
  ph : t.ph = .emit
  fb : t.fb = F
  fidx : t.fidx = 0
  resKind : t.resKind = .none
  errset : t.errset = 0
  resSent : t.resSent = 0
  resTxerr : t.resTxerr = 0
  noStrobe : t.resValid = false
  tx : t.tx = s.tx
  chan : t.transport.chan = s.transport.chan
  opened : t.transport.opened = s.transport.opened
  noCall : t.transport.callInFrame = false
  lastReturn : t.transport.lastReturn = s.transport.lastReturn
  params : t.params = s.params
  env : t.env = s.env

/-- From `s` to `t` a command was refused with the violations `V` (R17.1, R142, R145): only the result and `FLEN` are
written. -/
structure RefusedAs (V : ErrSet) (s t : State) : Prop where
  ph : t.ph = s.ph
  fb : t.fb = []
  fidx : t.fidx = s.fidx
  resKind : t.resKind = .validation
  errset : t.errset = V
  resSent : t.resSent = 0
  resTxerr : t.resTxerr = 0
  strobe : t.resValid = true
  tx : t.tx = s.tx
  transport : t.transport = s.transport
  params : t.params = s.params
  env : t.env = s.env

/-- The command runs in `s`, has no violation and begins to emit the frame `F`. -/
def Accepts (i : Instr) (s : State) (F : List Byte) : Prop := ∃ t, exec i s = .next t ∧ AcceptedAs F s t

/-- The command runs in `s` and is refused with the violations `V`. -/
def Refuses (i : Instr) (s : State) (V : ErrSet) : Prop := ∃ t, exec i s = .next t ∧ RefusedAs V s t

/-! ### Waiting -/

/-- From `s` to `t` no step of R17 was enabled: every element of R10, the outputs of the TX port, the TX stream, the
transport and the parameters are as before, and no strobe is out (R16, log 4). The inputs still to come are `rest`. -/
structure WaitedAs (rest : List Event) (s t : State) : Prop where
  ph : t.ph = s.ph
  fb : t.fb = s.fb
  fidx : t.fidx = s.fidx
  resKind : t.resKind = s.resKind
  errset : t.errset = s.errset
  resSent : t.resSent = s.resSent
  resTxerr : t.resTxerr = s.resTxerr
  noStrobe : t.resValid = false
  tx : t.tx = s.tx
  transport : t.transport = s.transport
  params : t.params = s.params
  env : t.env = rest
  txData : t.txData = s.txData
  txLast : t.txLast = s.txLast

/-! ### The invariant -/

/-- What holds of every state the block can be in (R13 to R15, R18; log 12 for the handles). -/
structure State.Inv (s : State) : Prop where
  /-- The flag counts are 1 to 8 (R6). -/
  params : s.params.wf
  /-- `FLEN` ≤ 257 (R12). -/
  frame : s.fb.length ≤ 257
  /-- `FIDX` ≤ 257 (R14). -/
  index : s.fidx.toNat ≤ 257
  /-- In EMIT a byte is offered: `FIDX < FLEN` (R14). -/
  offered : s.ph = .emit → s.fidx.toNat < s.fb.length
  /-- In EMIT there is no result and no strobe (R18 b). -/
  inFlight : s.ph = .emit → s.resKind = .none ∧ s.resValid = false
  /-- `ERRSET` ≠ 0 exactly for VALIDATION (R18 c). -/
  violations : s.errset ≠ 0 ↔ s.resKind = .validation
  /-- Bits 18 to 31 of `ERRSET` are never set (R144). -/
  violationBits : s.errset.toNat < 2 ^ 18
  /-- `RES_SENT` is `FLEN` when OK, `FIDX` at the failure when TRANSPORT, else 0 (R15). -/
  sent :
    (s.resKind = .ok → s.resSent = s.flen ∧ 1 ≤ s.fb.length) ∧
    (s.resKind = .transport → s.resSent = s.fidx ∧ s.fidx.toNat < s.fb.length) ∧
    (s.resKind ≠ .ok → s.resKind ≠ .transport → s.resSent = 0)
  /-- `RES_TXERR` is 0 unless TRANSPORT (R15). -/
  txerr : s.resKind ≠ .transport → s.resTxerr = 0
  /-- A refused command leaves no frame (R12). -/
  refused : s.resKind = .validation ∨ s.resKind = .illegal → s.fb = []
  /-- A strobe goes with a result (R16). -/
  strobe : s.resValid = true → s.resKind ≠ .none
  /-- An open channel was opened by a past call (R41). -/
  handle : ∀ h, s.transport.chan = some h → h < s.transport.opened

/-! ### Decoding and checking -/

/-- Every descriptor with the opcode is the command with these operands, whatever `VAR` and the other fields hold. -/
def DecodesTo (op : Byte) (operands : Descriptor → Instr) : Prop := ∀ d, d.op = op → decode d = .ok (operands d)

/-- The commands with a range table (R144); the others never violate (R141, R119). -/
def checked : Instr → Bool
  | .baud _ | .drive _ _ | .driveDirect _ _ | .drivePWM _ _ | .pwmMotors _ _ _ | .play _ | .song _ _ _ | .schedule _ _
  | .setDateTime _ _ _ => true
  | .start | .safe | .full | .power | .spot | .clean | .max | .demo _ | .motors _ | .leds _ _ _ | .sensors _ | .seekDock
  | .digitalOutput _ | .stream _ | .queryList _ | .pauseResumeStream _ | .sendIR _ | .schedulingLEDs _ _
  | .digitLEDsRaw _ _ _ _ | .digitLEDsASCII _ | .buttons _ => false

/-! ### Answered bytes -/

/-- A sample in which the transport acknowledges or delays: no reset, no failure (R47). The command port may show
anything. -/
def PortSample.calm (p : PortSample) : Bool := !p.rst && !p.tx.error

/-- How many of the samples acknowledge. -/
def acks (ps : List PortSample) : Nat := ps.countP fun p => p.tx.ready

/-- The channel gives the link's answers unchanged: it is open, or a lifecycle call came during the frame (R43, R48). -/
def Transport.linked (t : Transport) : Bool := t.chan.isSome || t.callInFrame

/-- `n` steps, stopping at a fault or a refusal (`Host.Core.run` at the machine's own types). -/
def run : Nat → State → Result
  | 0, s => .next s
  | n + 1, s =>
    match step s with
    | .next t => run n t
    | .fault r => .fault r
    | .refused r => .refused r

/-- The bytes a presented descriptor puts on TX when every byte is acknowledged: the frame of a command without
violation, nothing for a violating command or an illegal selector (R38). -/
def deliveredFrame (p : Params) (d : Descriptor) : List Byte :=
  match decode d with
  | .ok i => if (ruleOf p i).violations = 0 then (ruleOf p i).frame else []
  | .error _ => []

/-- A host that presents descriptors one after the other, each when the one before is finished, to a transport that
acknowledges every byte at once. -/
def presented (p : Params) (ds : List Descriptor) : List Event :=
  ds.flatMap fun d => .edge (.present d) :: List.replicate (deliveredFrame p d).length (.edge .ack)

end Sys2Proof.Machine
end

