-- ==== Sys2Proof/Certificates/Slice0/Obligations.lean ====
section
/-! DEFINITION. The statements for the provers. "Idle" is `PH` = IDLE, where 10_state.md R17 enables the accept step;
`Accepts i s F` and `Refuses i s V` (Safety.lean) say that `exec i s` answers a next state and what every element of it
is; the clause of `Accepts` that the new frame has seen no lifecycle call is the model's own (log 11). -/

open Sys2Proof Sys2Proof.Machine

/-! ### Encoding -/

/-- Words written out from R60 and descriptors written out from R53 decode to the commands they stand for. R53, R60 and
the table give operands no bits: that a table word has every operand 0, so that 0x188 is `Demo(0)`, is the model's choice
(log 9). -/
def Obligations.TableWordsDecodeToTheirCommands : Prop :=
  decodeTableWord 8 0x80 = some .start ∧ decodeTableWord 16 0x088 = some .max ∧
  decodeTableWord 16 0x188 = some (.demo 0) ∧ decodeTableWord 8 0x82 = none ∧
  decode { Descriptor.ofOp 0x89 with w0 := 0x00C8, w1 := 0x7FFF } = .ok (.drive 200 32767) ∧
  decode { Descriptor.ofOp 0x90 with b0 := 0x7F, b1 := 0x81, b2 := 0x7F } = .ok (.pwmMotors 127 129 127) ∧
  decode { Descriptor.ofOp 0x8A with flags := 0b00010101 } = .ok (.motors 0x15) ∧
  decode { Descriptor.ofOp 0x94 with len := 3, list := padList [7, 19, 20] } = .ok (.stream [7, 19, 20]) ∧
  decode { Descriptor.ofOp 0xA8 with b0 := 3, b1 := 14, b2 := 45 } = .ok (.setDateTime 3 14 45)

/-- Decoding the descriptor that presents a well-formed command gives the command back. -/
def Obligations.DecodeOfEncodeIsIdentity : Prop := ∀ i : Instr, i.wf = true → decode (encode i) = .ok i

/-- Whatever descriptor is presented, a command decoded from it is well formed. That a decoded song holds min(`LEN`, 16)
notes is the model's reading of R125, which examines no others (log 16, DEDUCED); R53 names `LEN` notes. -/
def Obligations.DecodedCommandsAreWellFormed : Prop := ∀ (d : Descriptor) (i : Instr), decode d = .ok i → i.wf = true

/-- R61: the command is that of the row whose `match` the masked selector equals, at most one row is such, and with none
the selector is illegal. -/
def Obligations.DecoderFollowsTheOpcodeMap : Prop :=
  ∀ d : Descriptor,
    (∀ r ∈ opcodeMap, d.sel &&& r.mask = r.pattern → decode d = .ok (r.operands d)) ∧
    (∀ r ∈ opcodeMap, ∀ r' ∈ opcodeMap, d.sel &&& r.mask = r.pattern → d.sel &&& r'.mask = r'.pattern →
      r.mnemonic = r'.mnemonic) ∧
    ((∀ r ∈ opcodeMap, d.sel &&& r.mask ≠ r.pattern) → decode d = .error (.illegalSelector d.sel))

/-- R62, R146: exactly these opcodes are illegal, with either value of `VAR`; presented to an idle block they are reported
at once, whatever the operands hold, and nothing else happens. -/
def Obligations.IllegalSelectorsAreReportedAndWriteNothing : Prop :=
  (∀ d : Descriptor, (∃ e, decode d = .error e) ↔
    d.op.toNat ≤ 127 ∨ d.op.toNat = 130 ∨ (152 ≤ d.op.toNat ∧ d.op.toNat ≤ 161) ∨ d.op.toNat = 166 ∨ 169 ≤ d.op.toNat) ∧
  (∀ (s : State) (p : PortSample) (rest : List Event) (d : Descriptor),
    s.ph = .idle → s.env = .edge p :: rest → p.rst = false → p.cmd = some d → (∃ e, decode d = .error e) →
    ∃ t, step s = .next t ∧ t.ph = .idle ∧ t.fb = [] ∧ t.fidx = s.fidx ∧ t.resKind = .illegal ∧ t.errset = 0 ∧
      t.resSent = 0 ∧ t.resTxerr = 0 ∧ t.resValid = true ∧ t.tx = s.tx ∧ t.transport = s.transport ∧
      t.params = s.params ∧ t.env = rest)

/-- R63: under every opcode but 136, `VAR` changes nothing. -/
def Obligations.VarIsIgnoredExceptUnder136 : Prop :=
  ∀ (d : Descriptor) (v : Bool), d.op ≠ 136 → (decode { d with var := v }).toOption = (decode d).toOption

/-- R64: two descriptors with the same selector that agree on what the command reads (R53), flags cut to the command's
flag count, have the same frame and the same result. -/
def Obligations.IgnoredFieldsChangeNothing : Prop :=
  ∀ (d d' : Descriptor) (s : State),
    d.sel = d'.sel → d.readFields s.params = d'.readFields s.params → acceptDescriptor d s = acceptDescriptor d' s

/-! ### Operand laws -/

/-- R105: the two bytes of a 16-bit value, high byte first, and back. -/
def Obligations.SixteenBitValuesAreBigEndianPairs : Prop :=
  ∀ w : Word,
    ((hi w).toNat : Int) = (w.toInt >>> (8 : Nat)) % 256 ∧ ((lo w).toNat : Int) = w.toInt % 256 ∧
    (w.toNat : Int) = (if 0 ≤ w.toInt then w.toInt else w.toInt + 65536) ∧
    (hi w ++ lo w : Word) = w

/-- R113: bit `i` of `pack(k, flags)` is flag `i` below `k` and 0 from there on; as a number it is `flags` modulo `2^k`. -/
def Obligations.PackKeepsTheFirstFlagsAndClearsTheRest : Prop :=
  ∀ (k : Nat) (flags : Byte), 1 ≤ k → k ≤ 8 →
    (∀ i, (pack k flags).getLsbD i = (decide (i < k) && flags.getLsbD i)) ∧ (pack k flags).toNat = flags.toNat % 2 ^ k

/-- R124: a note is valid exactly with a number from 31 to 127, whatever its duration. -/
def Obligations.NotesAreValidFrom31To127 : Prop :=
  ∀ number duration : Byte, noteValid ⟨number, duration⟩ = true ↔ 31 ≤ number.toNat ∧ number.toNat ≤ 127

/-- R128: four characters, the message's where it has them, spaces after it. -/
def Obligations.Pad4CutsOrPadsToFour : Prop :=
  ∀ m : List Byte, (pad4 m).length = 4 ∧
    ∀ j, j < 4 → (∀ h : j < m.length, (pad4 m)[j]? = some m[j]) ∧ (m.length ≤ j → (pad4 m)[j]? = some 0x20)

/-! ### The commands -/

/-- R81 to R88: each zero-payload command emits its opcode and never violates. -/
def Obligations.ZeroPayloadCommandsEmitTheirOpcode : Prop :=
  DecodesTo 128 (fun _ => .start) ∧ DecodesTo 131 (fun _ => .safe) ∧ DecodesTo 132 (fun _ => .full) ∧
  DecodesTo 133 (fun _ => .power) ∧ DecodesTo 134 (fun _ => .spot) ∧ DecodesTo 135 (fun _ => .clean) ∧
  DecodesTo 143 (fun _ => .seekDock) ∧ (∀ d : Descriptor, d.op = 136 → d.var = false → decode d = .ok .max) ∧
  ∀ s : State, s.ph = .idle →
    Accepts .start s [128] ∧ Accepts .safe s [131] ∧ Accepts .full s [132] ∧ Accepts .power s [133] ∧
    Accepts .spot s [134] ∧ Accepts .clean s [135] ∧ Accepts .max s [136] ∧ Accepts .seekDock s [143]

/-- R91. -/
def Obligations.BaudChecksItsCode : Prop :=
  DecodesTo 129 (fun d => .baud d.b0) ∧
  ∀ (code : Byte) (s : State), s.ph = .idle →
    (code.toNat ≤ 11 → Accepts (.baud code) s [129, code]) ∧ (11 < code.toNat → Refuses (.baud code) s 0x00000001)

/-- R93. -/
def Obligations.PlayChecksItsSlot : Prop :=
  DecodesTo 141 (fun d => .play d.b0) ∧
  ∀ (slot : Byte) (s : State), s.ph = .idle →
    (slot.toNat ≤ 3 → Accepts (.play slot) s [141, slot]) ∧ (3 < slot.toNat → Refuses (.play slot) s 0x00000001)

/-- R92, R94, R97, R98: operand bytes of any value, sent as they are. -/
def Obligations.UncheckedByteCommandsCopyTheirBytes : Prop :=
  (∀ d : Descriptor, d.op = 136 → d.var = true → decode d = .ok (.demo d.b0)) ∧
  DecodesTo 142 (fun d => .sensors d.b0) ∧ DecodesTo 151 (fun d => .sendIR d.b0) ∧
  DecodesTo 163 (fun d => .digitLEDsRaw d.b0 d.b1 d.b2 d.b3) ∧
  ∀ (a b c e : Byte) (s : State), s.ph = .idle →
    Accepts (.demo a) s [136, a] ∧ Accepts (.sensors a) s [142, a] ∧ Accepts (.sendIR a) s [151, a] ∧
    Accepts (.digitLEDsRaw a b c e) s [163, a, b, c, e]

/-- R96: 0 to pause, 1 to resume, from `FLAGS[0]` alone. -/
def Obligations.PauseResumeStreamSendsZeroOrOne : Prop :=
  DecodesTo 150 (fun d => .pauseResumeStream (d.flags.getLsbD 0)) ∧
  ∀ s : State, s.ph = .idle →
    Accepts (.pauseResumeStream false) s [150, 0] ∧ Accepts (.pauseResumeStream true) s [150, 1]

/-- R95: the brush bytes checked only by the parameter, the vacuum byte by its range, all violations reported. -/
def Obligations.PwmMotorsChecksItsDuties : Prop :=
  DecodesTo 144 (fun d => .pwmMotors d.b0 d.b1 d.b2) ∧
  ∀ (main side vacuum : Byte) (s : State), s.ph = .idle →
    (main ∉ s.params.brushRefused ∧ side ∉ s.params.brushRefused ∧ vacuum.toNat ≤ 127 →
      Accepts (.pwmMotors main side vacuum) s [144, main, side, vacuum]) ∧
    (¬ (main ∉ s.params.brushRefused ∧ side ∉ s.params.brushRefused ∧ vacuum.toNat ≤ 127) →
      Refuses (.pwmMotors main side vacuum) s
        ((if main ∈ s.params.brushRefused then 1 else 0) ||| (if side ∈ s.params.brushRefused then 2 else 0) |||
         (if 127 < vacuum.toNat then 4 else 0)))

/-- R106. -/
def Obligations.DriveChecksVelocityAndRadius : Prop :=
  DecodesTo 137 (fun d => .drive d.w0 d.w1) ∧
  ∀ (velocity radius : Word) (s : State), s.ph = .idle →
    let velocityIn := -500 ≤ velocity.toInt ∧ velocity.toInt ≤ 500
    let radiusIn := (-2000 ≤ radius.toInt ∧ radius.toInt ≤ 2000) ∨ radius.toInt = -32768 ∨ radius.toInt = 32767
    (velocityIn ∧ radiusIn → Accepts (.drive velocity radius) s [137, hi velocity, lo velocity, hi radius, lo radius]) ∧
    (¬ velocityIn ∧ radiusIn → Refuses (.drive velocity radius) s 0x00000001) ∧
    (velocityIn ∧ ¬ radiusIn → Refuses (.drive velocity radius) s 0x00000002) ∧
    (¬ velocityIn ∧ ¬ radiusIn → Refuses (.drive velocity radius) s 0x00000003)

/-- R107. -/
def Obligations.DriveDirectChecksBothWheels : Prop :=
  DecodesTo 145 (fun d => .driveDirect d.w0 d.w1) ∧
  ∀ (right left : Word) (s : State), s.ph = .idle →
    let rightIn := -500 ≤ right.toInt ∧ right.toInt ≤ 500
    let leftIn := -500 ≤ left.toInt ∧ left.toInt ≤ 500
    (rightIn ∧ leftIn → Accepts (.driveDirect right left) s [145, hi right, lo right, hi left, lo left]) ∧
    (¬ rightIn ∧ leftIn → Refuses (.driveDirect right left) s 0x00000001) ∧
    (rightIn ∧ ¬ leftIn → Refuses (.driveDirect right left) s 0x00000002) ∧
    (¬ rightIn ∧ ¬ leftIn → Refuses (.driveDirect right left) s 0x00000003)

/-- R108. -/
def Obligations.DrivePwmChecksBothWheels : Prop :=
  DecodesTo 146 (fun d => .drivePWM d.w0 d.w1) ∧
  ∀ (right left : Word) (s : State), s.ph = .idle →
    let rightIn := -255 ≤ right.toInt ∧ right.toInt ≤ 255
    let leftIn := -255 ≤ left.toInt ∧ left.toInt ≤ 255
    (rightIn ∧ leftIn → Accepts (.drivePWM right left) s [146, hi right, lo right, hi left, lo left]) ∧
    (¬ rightIn ∧ leftIn → Refuses (.drivePWM right left) s 0x00000001) ∧
    (rightIn ∧ ¬ leftIn → Refuses (.drivePWM right left) s 0x00000002) ∧
    (¬ rightIn ∧ ¬ leftIn → Refuses (.drivePWM right left) s 0x00000003)

/-- R114: five flags on bits 0 to 4, the bits above them 0. -/
def Obligations.MotorsSendsItsFiveFlags : Prop :=
  DecodesTo 138 (fun d => .motors d.flags) ∧
  ∀ (flags : Byte) (s : State), s.ph = .idle → Accepts (.motors flags) s [138, BitVec.ofNat 8 (flags.toNat % 32)]

/-- R115 to R118, for whatever flag counts the block was built with. -/
def Obligations.BitfieldCommandsPackTheirFlags : Prop :=
  DecodesTo 139 (fun d => .leds d.flags d.b0 d.b1) ∧ DecodesTo 147 (fun d => .digitalOutput d.flags) ∧
  DecodesTo 162 (fun d => .schedulingLEDs d.b0 d.flags) ∧ DecodesTo 165 (fun d => .buttons d.flags) ∧
  ∀ (flags a b : Byte) (s : State), s.ph = .idle → s.params.wf →
    Accepts (.leds flags a b) s [139, BitVec.ofNat 8 (flags.toNat % 2 ^ s.params.kLeds), a, b] ∧
    Accepts (.digitalOutput flags) s [147, BitVec.ofNat 8 (flags.toNat % 2 ^ s.params.kDigout)] ∧
    Accepts (.schedulingLEDs a flags) s [162, a, BitVec.ofNat 8 (flags.toNat % 2 ^ s.params.kSchedLeds)] ∧
    Accepts (.buttons flags) s [165, BitVec.ofNat 8 (flags.toNat % 2 ^ s.params.kButtons)]

/-- R125: a song is sent whole, or refused with one bit for each invalid note among the first sixteen, for the slot and
for the length. -/
def Obligations.SongChecksSlotLengthAndNotes : Prop :=
  DecodesTo 140 (fun d => .song d.b0 d.len
    ((List.range (min d.len.toNat 16)).map fun i => ⟨d.item (2 * i), d.item (2 * i + 1)⟩)) ∧
  ∀ (slot count : Byte) (notes : List Note) (s : State), s.ph = .idle → notes.length = min count.toNat 16 →
    let valid := slot.toNat ≤ 3 ∧ count.toNat ≤ 16 ∧ ∀ n ∈ notes, 31 ≤ n.number.toNat ∧ n.number.toNat ≤ 127
    (valid → Accepts (.song slot count notes) s ([140, slot, count] ++ notes.flatMap fun n => [n.number, n.duration])) ∧
    (¬ valid → ∃ V, Refuses (.song slot count notes) s V ∧
      (∀ j, j < 16 → (V.getLsbD j = true ↔
        ∃ n, notes[j]? = some n ∧ ¬ (31 ≤ n.number.toNat ∧ n.number.toNat ≤ 127))) ∧
      (V.getLsbD 16 = true ↔ 3 < slot.toNat) ∧ (V.getLsbD 17 = true ↔ 16 < count.toNat) ∧
      ∀ j, 18 ≤ j → V.getLsbD j = false)

/-- R126, R127: the computed count, then the identifiers, any values, none to 255 of them. -/
def Obligations.IdentifierListsCarryAComputedCount : Prop :=
  DecodesTo 148 (fun d => .stream ((List.range d.len.toNat).map d.item)) ∧
  DecodesTo 149 (fun d => .queryList ((List.range d.len.toNat).map d.item)) ∧
  ∀ (ids : List Byte) (s : State), s.ph = .idle → ids.length ≤ 255 →
    ∃ n : Byte, n.toNat = ids.length ∧
      Accepts (.stream ids) s (148 :: n :: ids) ∧ Accepts (.queryList ids) s (149 :: n :: ids)

/-- R129: the first four characters, padded with spaces; never a violation. -/
def Obligations.DigitLedsAsciiSendsFourCharacters : Prop :=
  DecodesTo 164 (fun d => .digitLEDsASCII ((List.range d.len.toNat).map d.item)) ∧
  ∀ (message : List Byte) (s : State), s.ph = .idle →
    Accepts (.digitLEDsASCII message) s
      [164, message.getD 0 0x20, message.getD 1 0x20, message.getD 2 0x20, message.getD 3 0x20]

/-- R133, R134: the day bits and fourteen time bytes, zero for inactive days; hours and minutes of active days checked,
those of inactive days never. -/
def Obligations.ScheduleSendsSevenDaysAndChecksTheActive : Prop :=
  DecodesTo 167 (fun d => .schedule d.flags ((List.range 7).map fun i => ⟨d.item (2 * i), d.item (2 * i + 1)⟩)) ∧
  ∀ (flags : Byte) (times : List TimeOfDay) (s : State), s.ph = .idle → times.length = 7 →
    let valid := ∀ i t, times[i]? = some t → flags.getLsbD i = true → t.hour.toNat ≤ 23 ∧ t.minute.toNat ≤ 59
    (valid → Accepts (.schedule flags times) s
      (167 :: BitVec.ofNat 8 (flags.toNat % 128) ::
        (List.range 7).flatMap fun i =>
          if flags.getLsbD i then [(times.getD i ⟨0, 0⟩).hour, (times.getD i ⟨0, 0⟩).minute] else [0, 0])) ∧
    (¬ valid → ∃ V, Refuses (.schedule flags times) s V ∧
      (∀ i t, times[i]? = some t →
        (V.getLsbD (2 * i) = true ↔ flags.getLsbD i = true ∧ 23 < t.hour.toNat) ∧
        (V.getLsbD (2 * i + 1) = true ↔ flags.getLsbD i = true ∧ 59 < t.minute.toNat)) ∧
      ∀ j, 14 ≤ j → V.getLsbD j = false)

/-- R136. -/
def Obligations.SetDateTimeChecksItsFields : Prop :=
  DecodesTo 168 (fun d => .setDateTime d.b0 d.b1 d.b2) ∧
  ∀ (weekday hour minute : Byte) (s : State), s.ph = .idle →
    (weekday.toNat ≤ 6 ∧ hour.toNat ≤ 23 ∧ minute.toNat ≤ 59 →
      Accepts (.setDateTime weekday hour minute) s [168, weekday, hour, minute]) ∧
    (¬ (weekday.toNat ≤ 6 ∧ hour.toNat ≤ 23 ∧ minute.toNat ≤ 59) →
      Refuses (.setDateTime weekday hour minute) s
        ((if 6 < weekday.toNat then 1 else 0) ||| (if 23 < hour.toNat then 2 else 0) |||
         (if 59 < minute.toNat then 4 else 0)))

/-- R67, R135: each pseudo-command is presented as its real command and emits that command's frame. -/
def Obligations.PseudoCommandsEmitTheirRealFrames : Prop :=
  (∀ c : PseudoCommand, decode (encode c.expand) = .ok c.expand) ∧
  ∀ s : State, s.ph = .idle →
    Accepts PseudoCommand.halt.expand s [131] ∧
    Accepts PseudoCommand.disableSchedule.expand s (167 :: List.replicate 15 0) ∧
    Accepts PseudoCommand.pauseStream.expand s [150, 0] ∧ Accepts PseudoCommand.resumeStream.expand s [150, 1]

/-! ### Over all commands -/

/-- R141, R119: a command without a range table succeeds at validation, with every operand. -/
def Obligations.CommandsWithoutRangeTableNeverViolate : Prop :=
  ∀ (i : Instr) (s : State), s.ph = .idle → checked i = false → ∃ F, Accepts i s F

/-- R144: no well-formed command sets a bit from 18 to 31. -/
def Obligations.ViolationBitsStayBelow18 : Prop :=
  ∀ (p : Params) (i : Instr), i.wf = true → ∀ j, 18 ≤ j → (ruleOf p i).violations.getLsbD j = false

/-- R55, R6: the frame of a command without violation has the length of its format, and at most 257 bytes. -/
def Obligations.FrameLengthIsThatOfTheFormat : Prop :=
  ∀ (p : Params) (i : Instr), i.wf = true → (ruleOf p i).violations = 0 →
    (ruleOf p i).frame.length = frameLength (formatOf i) (listLen i) ∧ (ruleOf p i).frame.length ≤ 257

/-- R123: the count byte of a list command's frame is the number of entries that follow it. -/
def Obligations.CountByteEqualsTheEntriesThatFollow : Prop :=
  (∀ ids : List Byte, ids.length ≤ 255 → ∀ F, F = (ruleStream ids).frame ∨ F = (ruleQueryList ids).frame →
    ∃ n, F[1]? = some n ∧ (F.drop 2).length = n.toNat) ∧
  (∀ (slot count : Byte) (notes : List Note), notes.length = min count.toNat 16 →
    (ruleSong slot count notes).violations = 0 →
    ∃ n, (ruleSong slot count notes).frame[2]? = some n ∧ ((ruleSong slot count notes).frame.drop 3).length = 2 * n.toNat)

/-- R56: a reader that knows `VAR` cuts a whole frame off the head of the stream, whatever follows. -/
def Obligations.ReaderCutsWholeFrames : Prop :=
  ∀ (p : Params) (i : Instr) (rest : List Byte), i.wf = true → (ruleOf p i).violations = 0 →
    cutFrame (encode i).var ((ruleOf p i).frame ++ rest) = some ((ruleOf p i).frame, rest)

/-- R10: what a command leaves in the block depends on the command and the parameters alone, not on any earlier command. -/
def Obligations.EarlierCommandsDoNotInfluenceLaterOnes : Prop :=
  ∀ (i : Instr) (s s' : State), s.ph = .idle → s'.ph = .idle → s.params = s'.params →
    ∃ t t', exec i s = .next t ∧ exec i s' = .next t' ∧ t.ph = t'.ph ∧ t.fb = t'.fb ∧ (t.ph = .emit → t.fidx = t'.fidx) ∧
      t.resKind = t'.resKind ∧ t.errset = t'.errset ∧ t.resSent = t'.resSent ∧ t.resTxerr = t'.resTxerr ∧
      t.resValid = t'.resValid

/-! ### The steps -/

/-- A step of an idle block with a descriptor on the port is `exec` of the decoded command, on the state without the
sampled inputs. -/
def Obligations.StepRunsTheDecodedCommand : Prop :=
  ∀ (s : State) (p : PortSample) (rest : List Event) (d : Descriptor) (i : Instr),
    s.ph = .idle → s.env = .edge p :: rest → p.rst = false → p.cmd = some d → decode d = .ok i →
    step s = exec i { s with env := rest }

/-- R13, R175: while a frame is handed over the command port is not sampled. -/
def Obligations.CommandPortIsNotSampledInEmit : Prop :=
  ∀ (s : State) (p : PortSample) (rest : List Event) (c : Option Descriptor), s.ph = .emit →
    step { s with env := .edge p :: rest } = step { s with env := .edge { p with cmd := c } :: rest }

/-- R17, R183: with no step enabled nothing changes, and an offered byte stays offered. The second clause is the model's
choice (log 1): with no input left every input stays low, so the machine waits in every state, the reset state among
them. -/
def Obligations.WithNoStepEnabledNothingChanges : Prop :=
  (∀ (s : State) (p : PortSample) (rest : List Event), s.env = .edge p :: rest → p.rst = false →
    (s.ph = .idle → p.cmd = none) → (s.ph = .emit → p.tx.ready = false ∧ p.tx.error = false) →
    ∃ t, step s = .next t ∧ WaitedAs rest s t) ∧
  (∀ s : State, s.env = [] → ∃ t, step s = .next t ∧ WaitedAs [] s t)

/-- R17.2: a beat hands over the offered byte; the last beat ends the command OK. -/
def Obligations.BeatHandsOverTheOfferedByte : Prop :=
  ∀ (s : State) (p : PortSample) (rest : List Event), s.Inv → s.ph = .emit → s.transport.linked = true →
    s.env = .edge p :: rest → p.rst = false → p.tx.ready = true → p.tx.error = false →
    ∃ t b, step s = .next t ∧ s.fb[s.fidx.toNat]? = some b ∧ t.tx = s.tx ++ [b] ∧ t.fb = s.fb ∧ t.errset = 0 ∧
      t.resTxerr = s.resTxerr ∧ t.transport = s.transport ∧ t.params = s.params ∧ t.env = rest ∧
      (s.fidx.toNat + 1 < s.fb.length →
        t.ph = .emit ∧ t.fidx.toNat = s.fidx.toNat + 1 ∧ t.resKind = .none ∧ t.resSent = s.resSent ∧ t.resValid = false) ∧
      (s.fidx.toNat + 1 = s.fb.length →
        t.ph = .idle ∧ t.fidx.toNat = s.fb.length ∧ t.resKind = .ok ∧ t.resSent.toNat = s.fb.length ∧ t.resValid = true)

/-- R150: a transport error ends the frame, with `tx_ready` at either value; the byte is not taken. -/
def Obligations.TransportErrorAbandonsTheFrame : Prop :=
  ∀ (s : State) (p : PortSample) (rest : List Event), s.ph = .emit → s.transport.linked = true →
    s.env = .edge p :: rest → p.rst = false → p.tx.error = true →
    ∃ t, step s = .next t ∧ t.ph = .idle ∧ t.resKind = .transport ∧ t.resSent = s.fidx ∧ t.resTxerr = p.tx.ecode ∧
      t.resValid = true ∧ t.errset = s.errset ∧ t.fb = s.fb ∧ t.fidx = s.fidx ∧ t.tx = s.tx ∧ t.transport = s.transport ∧
      t.params = s.params ∧ t.env = rest

/-- R43, R173: with no channel, and no lifecycle call during the frame, any answer to an offered byte is a failure, no
byte reaches TX, and nothing else changes. That the model turns an acknowledgement into a failure is its own reading
(log 10). -/
def Obligations.ClosedChannelFailsTheOfferedByte : Prop :=
  ∀ (s : State) (p : PortSample) (rest : List Event), s.ph = .emit → s.transport.linked = false →
    s.env = .edge p :: rest → p.rst = false → p.tx.ready = true ∨ p.tx.error = true →
    ∃ t, step s = .next t ∧ t.ph = .idle ∧ t.resKind = .transport ∧ t.resSent = s.fidx ∧ t.resTxerr = p.tx.ecode ∧
      t.resValid = true ∧ t.errset = s.errset ∧ t.fb = s.fb ∧ t.fidx = s.fidx ∧ t.tx = s.tx ∧ t.transport = s.transport ∧
      t.params = s.params ∧ t.env = rest

/-- R170 to R172, R21: in every state `rst` overrides the other steps and gives the reset values; TX, the channel and the
parameters stay. -/
def Obligations.ResetStepGivesTheResetValues : Prop :=
  ∀ (s : State) (p : PortSample) (rest : List Event), s.env = .edge p :: rest → p.rst = true →
    ∃ t, step s = .next t ∧ t.ph = .idle ∧ t.flen = 0 ∧ t.fidx = 0 ∧ t.resKind = .none ∧ t.errset = 0 ∧ t.resSent = 0 ∧
      t.resTxerr = 0 ∧ t.resValid = false ∧ t.cmdReady = true ∧ t.txValid = false ∧ t.txLast = false ∧
      t.tx = s.tx ∧ t.transport = s.transport ∧ t.params = s.params ∧ t.env = rest

/-- R16, R18 a: the TX port offers a byte of the frame exactly in EMIT, and the command port is ready exactly in IDLE. -/
def Obligations.OutputsFollowThePhase : Prop :=
  ∀ s : State, s.Inv →
    (s.ph = .idle → s.cmdReady = true ∧ s.txValid = false ∧ s.txLast = false) ∧
    (s.ph = .emit → s.cmdReady = false ∧ s.txValid = true ∧
      (∃ b, s.txData = some b ∧ s.fb[s.fidx.toNat]? = some b) ∧
      (s.txLast = true ↔ s.fidx.toNat + 1 = s.flen.toNat))

/-! ### The transport's operations -/

/-- R41: after `connect` the channel is fresh or none, both failures are returned, and nothing of the block changes but
that the strobe is down (R16). A call in EMIT marks the frame in flight, whose outcome R48 then leaves open. That a fresh
handle is a new number, that the mark is a field and that a call is a step of its own are the model's choices (log 12,
log 11, log 4, log 18). -/
def Obligations.ConnectDropsTheOldChannelAndReportsBothFailures : Prop :=
  ∀ (s : State) (closing opening : Option Byte) (rest : List Event), s.Inv →
    s.env = .call (.connect closing opening) :: rest →
    ∃ t, step s = .next t ∧
      (opening = none → ∃ h, t.transport.chan = some h ∧ s.transport.chan ≠ some h) ∧
      (opening ≠ none → t.transport.chan = none) ∧
      t.transport.lastReturn =
        .errors { closing := if s.transport.chan.isSome then closing else none, opening := opening } ∧
      t.transport.callInFrame = (s.transport.callInFrame || s.ph == .emit) ∧
      t.resValid = false ∧ t.ph = s.ph ∧ t.fb = s.fb ∧ t.fidx = s.fidx ∧ t.resKind = s.resKind ∧ t.errset = s.errset ∧ t.resSent = s.resSent ∧
      t.resTxerr = s.resTxerr ∧ t.tx = s.tx ∧ t.params = s.params ∧ t.env = rest

/-- R42: `finalize` clears the handle whether or not closing failed, and returns no error when nothing was open. A call in
EMIT marks the frame in flight (R48), and the strobe is down after it (R16); the mark and the step of its own are the
model's choices (log 11, log 4, log 18). -/
def Obligations.FinalizeClearsTheChannel : Prop :=
  ∀ (s : State) (closing : Option Byte) (rest : List Event), s.env = .call (.finalize closing) :: rest →
    ∃ t, step s = .next t ∧ t.transport.chan = none ∧ t.transport.opened = s.transport.opened ∧
      (s.transport.chan ≠ none → t.transport.lastReturn = .errors { closing := closing, opening := none }) ∧
      (s.transport.chan = none → t.transport.lastReturn = .errors { closing := none, opening := none }) ∧
      t.transport.callInFrame = (s.transport.callInFrame || s.ph == .emit) ∧
      t.resValid = false ∧ t.ph = s.ph ∧ t.fb = s.fb ∧ t.fidx = s.fidx ∧ t.resKind = s.resKind ∧ t.errset = s.errset ∧ t.resSent = s.resSent ∧
      t.resTxerr = s.resTxerr ∧ t.tx = s.tx ∧ t.params = s.params ∧ t.env = rest

/-- R44, R45: reading a byte and asking for the identity change nothing but what is returned, and the strobe is down after
the call (R16; that the call is a step of its own is the model's choice, log 4, log 18); the identity is the same every
time. -/
def Obligations.ProbesOfTheTransportChangeNothing : Prop :=
  ∀ (s : State) (value : Byte) (failure : Option Byte) (rest : List Event) (c : TransportCall),
    c = .readOneByte value failure ∨ c = .identity → s.env = .call c :: rest →
    ∃ t, step s = .next t ∧ t.transport.chan = s.transport.chan ∧ t.transport.opened = s.transport.opened ∧
      t.transport.callInFrame = s.transport.callInFrame ∧
      (c = .readOneByte value failure → t.transport.lastReturn = .byte value failure) ∧
      (c = .identity → t.transport.lastReturn = .identity Config.transportName Config.transportPort) ∧
      t.resValid = false ∧ t.ph = s.ph ∧ t.fb = s.fb ∧ t.fidx = s.fidx ∧ t.resKind = s.resKind ∧ t.errset = s.errset ∧ t.resSent = s.resSent ∧
      t.resTxerr = s.resTxerr ∧ t.tx = s.tx ∧ t.params = s.params ∧ t.env = rest

/-! ### Invariants and whole-machine rules -/

/-- R21, R40, R30: the reset state has the reset values, a transport handle without a channel and an empty TX, and the
invariant holds in it. -/
def Obligations.ResetStateHasTheInvariant : Prop :=
  State.reset.Inv ∧ State.reset.ph = .idle ∧ State.reset.flen = 0 ∧ State.reset.fidx = 0 ∧ State.reset.resKind = .none ∧
  State.reset.errset = 0 ∧ State.reset.resSent = 0 ∧ State.reset.resTxerr = 0 ∧ State.reset.resValid = false ∧
  State.reset.transport.chan = none ∧ State.reset.tx = []

/-- R18: from every state with the invariant the machine takes a step, to a state with the invariant: whatever the host
and the transport do, no step faults or is refused. -/
def Obligations.EveryStepKeepsTheInvariant : Prop := ∀ s : State, s.Inv → ∃ t, step s = .next t ∧ t.Inv

/-- R30: TX is only ever appended to, by one byte, the offered one, in EMIT. -/
def Obligations.TxGrowsOnlyByTheOfferedByte : Prop :=
  ∀ s t : State, step s = .next t →
    t.tx = s.tx ∨ (s.ph = .emit ∧ ∃ b, s.fb[s.fidx.toNat]? = some b ∧ t.tx = s.tx ++ [b])

/-- R15, R6: no step changes a parameter: nothing configures the block at run time. That the parameters stand in the
state is the model's choice (log 6). -/
def Obligations.NoStepChangesTheParameters : Prop := ∀ s t : State, step s = .next t → t.params = s.params

/-- R16, R158: while a frame is in flight a step strobes exactly when it ends the command with a result, and a step that
ends it without one is a reset. -/
def Obligations.StrobeMarksTheEndOfTheCommandInFlight : Prop :=
  ∀ s t : State, s.Inv → s.ph = .emit → step s = .next t →
    (t.resValid = true ↔ t.ph = .idle ∧ t.resKind ≠ .none) ∧
    (t.ph = .idle → t.resKind = .none → ∃ p rest, s.env = .edge p :: rest ∧ p.rst = true)

/-- R17, R38 a, R18 d: a valid command presented to an idle block, its bytes acknowledged after any delays, puts exactly
its frame on TX, in order, and ends OK. -/
def Obligations.AcknowledgedCommandPutsItsFrameOnTx : Prop :=
  ∀ (s : State) (d : Descriptor) (i : Instr) (ps : List PortSample) (last : PortSample) (rest : List Event),
    s.Inv → s.ph = .idle → s.transport.chan.isSome = true → decode d = .ok i → (ruleOf s.params i).violations = 0 →
    ps.all PortSample.calm = true → last.calm = true → last.tx.ready = true →
    acks ps + 1 = (ruleOf s.params i).frame.length →
    s.env = .edge (.present d) :: (ps ++ [last]).map .edge ++ rest →
    ∃ t, run (ps.length + 2) s = .next t ∧ t.ph = .idle ∧ t.tx = s.tx ++ (ruleOf s.params i).frame ∧ t.resKind = .ok ∧
      t.errset = 0 ∧ t.resSent.toNat = (ruleOf s.params i).frame.length ∧ t.resTxerr = 0 ∧ t.resValid = true ∧ t.env = rest

/-- R150, R35, R18 d: a frame failed after `k` acknowledged bytes leaves exactly its first `k` bytes on TX, and `RES_SENT`
says so. -/
def Obligations.FailedFrameLeavesExactlyTheAcknowledgedPrefix : Prop :=
  ∀ (s : State) (d : Descriptor) (i : Instr) (ps : List PortSample) (last : PortSample) (rest : List Event),
    s.Inv → s.ph = .idle → s.transport.chan.isSome = true → decode d = .ok i → (ruleOf s.params i).violations = 0 →
    ps.all PortSample.calm = true → last.rst = false → last.tx.error = true →
    acks ps < (ruleOf s.params i).frame.length →
    s.env = .edge (.present d) :: (ps ++ [last]).map .edge ++ rest →
    ∃ t, run (ps.length + 2) s = .next t ∧ t.ph = .idle ∧ t.tx = s.tx ++ (ruleOf s.params i).frame.take (acks ps) ∧
      t.resKind = .transport ∧ t.resSent.toNat = acks ps ∧ t.resTxerr = last.tx.ecode ∧ t.resValid = true ∧ t.errset = 0 ∧
      t.fb = (ruleOf s.params i).frame ∧ t.fidx.toNat = acks ps ∧ t.transport.chan = s.transport.chan ∧
      t.params = s.params ∧ t.env = rest

/-- R38: whatever commands are presented, every byte acknowledged at once, the frames of the valid ones stand on TX whole, in the order of acceptance, with
nothing between them; violating commands and illegal selectors contribute nothing. -/
def Obligations.FramesStandOnTxInOrderOfAcceptance : Prop :=
  ∀ (s : State) (ds : List Descriptor) (rest : List Event),
    s.Inv → s.ph = .idle → s.transport.chan.isSome = true → s.env = presented s.params ds ++ rest →
    ∃ t, run (presented s.params ds).length s = .next t ∧ t.ph = .idle ∧
      t.tx = s.tx ++ ds.flatMap (deliveredFrame s.params) ∧ t.env = rest
end

