-- ==== Sys2Proof/Laws/Decode.lean ====
section
/-! SUPPORT. The small laws of the decoder and the encoder: what `padList` puts where, and how list operands are read
back. -/

namespace Sys2Proof

theorem padList_toList (l : List Byte) : (padList l).toList = (l ++ List.replicate 255 0).take 255 := rfl

/-- An entry of a list padded with `n` zeros and cut to `n`: the given one, or 0. -/
theorem getD_take_padded (l : List Byte) (n j : Nat) (hj : j < n) :
    ((l ++ List.replicate n 0).take n).getD j 0 = l.getD j 0 := by
  simp only [List.getD_eq_getElem?_getD, List.getElem?_take_of_lt hj]
  by_cases h : j < l.length
  · rw [List.getElem?_append_left h]
  · rw [List.getElem?_append_right (by omega), List.getElem?_eq_none (by omega : l.length ≤ j),
      List.getElem?_replicate_of_lt (by omega)]
    rfl

/-- An entry of the padded list: the given one, or 0. -/
theorem padList_getD {l : List Byte} {j : Nat} (hj : j < 255) : (padList l).toList.getD j 0 = l.getD j 0 :=
  getD_take_padded l 255 j hj

/-- Reading back the entries a descriptor was given. -/
theorem items_padList {d : Descriptor} {l : List Byte} (hd : d.list = padList l) (hl : l.length ≤ 255) :
    d.items l.length = l := by
  apply List.ext_getElem
  · simp [Descriptor.items]
  · intro j h1 h2
    simp only [Descriptor.items, Descriptor.item, List.getElem_map, List.getElem_range, hd]
    rw [padList_getD (by omega)]
    simp [List.getD_eq_getElem?_getD, h2]

/-- The selector of a descriptor with a given `VAR` and opcode. -/
theorem sel_eq (d : Descriptor) : d.sel = BitVec.ofBool d.var ++ d.op := rfl

/-- A decoded command came from a row of the map that matches. -/
theorem decode_ok {d : Descriptor} {i : Instr} (h : decode d = .ok i) :
    ∃ r ∈ opcodeMap, r.matches d.sel = true ∧ i = r.operands d := by
  unfold decode at h
  split at h
  · next r hr =>
    cases h
    exact ⟨r, List.mem_of_find?_eq_some hr, by simpa using List.find?_some hr, rfl⟩
  · cases h

end Sys2Proof
end

