-- ==== Sys2Proof/Laws/Operands.lean ====
section
/-! SUPPORT. The small laws of the operand, bitfield and violation operations. -/

namespace Sys2Proof.Machine

/-! ### Sizes -/

@[simp] theorem wordPair_length (w0 w1 : Word) : (wordPair w0 w1).length = 4 := rfl

@[simp] theorem pad4_length (m : List Byte) : (pad4 m).length = 4 := by simp [pad4]

@[simp] theorem noteBytes_length (n : Note) : (noteBytes n).length = 2 := rfl

theorem flatMap_noteBytes_length (ns : List Note) : (ns.flatMap noteBytes).length = 2 * ns.length := by
  induction ns with
  | nil => rfl
  | cons n ns ih => simp [noteBytes, ih]; omega

@[simp] theorem dayTimes_length (flags : Byte) (ts : List TimeOfDay) :
    ∀ i, (dayTimes flags i ts).length = 2 * ts.length := by
  induction ts with
  | nil => intro i; rfl
  | cons t ts ih => intro i; simp only [dayTimes]; split <;> simp [ih] <;> omega

@[simp] theorem countByte_toNat {α : Type} {l : List α} (h : l.length ≤ 255) : (countByte l).toNat = l.length := by
  simp [countByte]; omega

/-! ### Bits of the violation set -/

@[simp] theorem violateIf_false (i : Nat) : violateIf i false = 0 := rfl

theorem violateIf_getLsbD {i : Nat} {c : Bool} {j : Nat} (hi : i < 32) :
    (violateIf i c).getLsbD j = (c && decide (i = j)) := by
  cases c
  · simp [violateIf]
  · simp only [violateIf, if_true, BitVec.getLsbD_twoPow, Bool.true_and]
    by_cases h : i = j
    · simp [h]; omega
    · simp [h]

theorem violateIf_eq_zero {i : Nat} {c : Bool} (hi : i < 32) : violateIf i c = 0 ↔ c = false := by
  constructor
  · intro h
    have := violateIf_getLsbD (c := c) (j := i) hi
    rw [h] at this
    simpa using this.symm
  · rintro rfl; rfl

/-- A union of violation sets is empty exactly when both are (R143). -/
theorem errset_or_eq_zero {a b : ErrSet} : a ||| b = 0 ↔ a = 0 ∧ b = 0 := by
  constructor
  · intro h
    have key : ∀ j, (a.getLsbD j || b.getLsbD j) = false := by
      intro j
      have := congrArg (fun v : ErrSet => v.getLsbD j) h
      simpa using this
    constructor <;> apply BitVec.eq_of_getLsbD_eq <;> intro j _ <;> have := key j <;> simp_all
  · rintro ⟨rfl, rfl⟩; rfl

/-- Bit `j` of the violations of notes numbered from `i` on. -/
theorem noteViolations_getLsbD (ns : List Note) :
    ∀ i j, i + ns.length ≤ 32 →
      (noteViolations i ns).getLsbD j = (decide (i ≤ j) && (ns[j - i]?.map fun n => !noteValid n).getD false) := by
  induction ns with
  | nil => intro i j _; simp [noteViolations]
  | cons n ns ih =>
    intro i j h
    simp only [List.length_cons] at h
    simp only [noteViolations, BitVec.getLsbD_or, violateIf_getLsbD (show i < 32 by omega), ih (i + 1) j (by omega)]
    rcases Nat.lt_trichotomy j i with hlt | rfl | hgt
    · simp [show ¬ i = j by omega, show ¬ i ≤ j by omega, show ¬ i + 1 ≤ j by omega]
    · simp
    · have : j - i = (j - (i + 1)) + 1 := by omega
      simp [show ¬ i = j by omega, show i ≤ j by omega, show i + 1 ≤ j by omega, this]

end Sys2Proof.Machine
end

