-- ==== Sys2Proof/Laws/State.lean ====
section
/-! SUPPORT. What each update of the state does to each field, one lemma per field per update. -/

namespace Sys2Proof.Machine

/-! ### `loadFrame`: the accept step of a command without violation -/

@[simp] theorem loadFrame_ph (s : State) (f : List Byte) : (s.loadFrame f).ph = .emit := rfl
@[simp] theorem loadFrame_fb (s : State) (f : List Byte) : (s.loadFrame f).fb = f := rfl
@[simp] theorem loadFrame_fidx (s : State) (f : List Byte) : (s.loadFrame f).fidx = 0 := rfl
@[simp] theorem loadFrame_resKind (s : State) (f : List Byte) : (s.loadFrame f).resKind = .none := rfl
@[simp] theorem loadFrame_errset (s : State) (f : List Byte) : (s.loadFrame f).errset = 0 := rfl
@[simp] theorem loadFrame_resSent (s : State) (f : List Byte) : (s.loadFrame f).resSent = 0 := rfl
@[simp] theorem loadFrame_resTxerr (s : State) (f : List Byte) : (s.loadFrame f).resTxerr = 0 := rfl
@[simp] theorem loadFrame_resValid (s : State) (f : List Byte) : (s.loadFrame f).resValid = false := rfl
@[simp] theorem loadFrame_tx (s : State) (f : List Byte) : (s.loadFrame f).tx = s.tx := rfl
@[simp] theorem loadFrame_transport (s : State) (f : List Byte) : (s.loadFrame f).transport = { s.transport with callInFrame := false } := rfl
@[simp] theorem loadFrame_params (s : State) (f : List Byte) : (s.loadFrame f).params = s.params := rfl
@[simp] theorem loadFrame_env (s : State) (f : List Byte) : (s.loadFrame f).env = s.env := rfl

/-! ### `refuseViolations`: the accept step of a command with violations -/

@[simp] theorem refuseViolations_ph (s : State) (v : ErrSet) : (s.refuseViolations v).ph = s.ph := rfl
@[simp] theorem refuseViolations_fb (s : State) (v : ErrSet) : (s.refuseViolations v).fb = [] := rfl
@[simp] theorem refuseViolations_fidx (s : State) (v : ErrSet) : (s.refuseViolations v).fidx = s.fidx := rfl
@[simp] theorem refuseViolations_resKind (s : State) (v : ErrSet) : (s.refuseViolations v).resKind = .validation := rfl
@[simp] theorem refuseViolations_errset (s : State) (v : ErrSet) : (s.refuseViolations v).errset = v := rfl
@[simp] theorem refuseViolations_resSent (s : State) (v : ErrSet) : (s.refuseViolations v).resSent = 0 := rfl
@[simp] theorem refuseViolations_resTxerr (s : State) (v : ErrSet) : (s.refuseViolations v).resTxerr = 0 := rfl
@[simp] theorem refuseViolations_resValid (s : State) (v : ErrSet) : (s.refuseViolations v).resValid = true := rfl
@[simp] theorem refuseViolations_tx (s : State) (v : ErrSet) : (s.refuseViolations v).tx = s.tx := rfl
@[simp] theorem refuseViolations_transport (s : State) (v : ErrSet) : (s.refuseViolations v).transport = s.transport := rfl
@[simp] theorem refuseViolations_params (s : State) (v : ErrSet) : (s.refuseViolations v).params = s.params := rfl
@[simp] theorem refuseViolations_env (s : State) (v : ErrSet) : (s.refuseViolations v).env = s.env := rfl

/-! ### `refuseIllegal`: the accept step of an illegal selector -/

@[simp] theorem refuseIllegal_ph (s : State) : (s.refuseIllegal).ph = s.ph := rfl
@[simp] theorem refuseIllegal_fb (s : State) : (s.refuseIllegal).fb = [] := rfl
@[simp] theorem refuseIllegal_fidx (s : State) : (s.refuseIllegal).fidx = s.fidx := rfl
@[simp] theorem refuseIllegal_resKind (s : State) : (s.refuseIllegal).resKind = .illegal := rfl
@[simp] theorem refuseIllegal_errset (s : State) : (s.refuseIllegal).errset = 0 := rfl
@[simp] theorem refuseIllegal_resSent (s : State) : (s.refuseIllegal).resSent = 0 := rfl
@[simp] theorem refuseIllegal_resTxerr (s : State) : (s.refuseIllegal).resTxerr = 0 := rfl
@[simp] theorem refuseIllegal_resValid (s : State) : (s.refuseIllegal).resValid = true := rfl
@[simp] theorem refuseIllegal_tx (s : State) : (s.refuseIllegal).tx = s.tx := rfl
@[simp] theorem refuseIllegal_transport (s : State) : (s.refuseIllegal).transport = s.transport := rfl
@[simp] theorem refuseIllegal_params (s : State) : (s.refuseIllegal).params = s.params := rfl
@[simp] theorem refuseIllegal_env (s : State) : (s.refuseIllegal).env = s.env := rfl

/-! ### `failTransport`: the fail step -/

@[simp] theorem failTransport_ph (s : State) (c : Byte) : (s.failTransport c).ph = .idle := rfl
@[simp] theorem failTransport_fb (s : State) (c : Byte) : (s.failTransport c).fb = s.fb := rfl
@[simp] theorem failTransport_fidx (s : State) (c : Byte) : (s.failTransport c).fidx = s.fidx := rfl
@[simp] theorem failTransport_resKind (s : State) (c : Byte) : (s.failTransport c).resKind = .transport := rfl
@[simp] theorem failTransport_errset (s : State) (c : Byte) : (s.failTransport c).errset = s.errset := rfl
@[simp] theorem failTransport_resSent (s : State) (c : Byte) : (s.failTransport c).resSent = s.fidx := rfl
@[simp] theorem failTransport_resTxerr (s : State) (c : Byte) : (s.failTransport c).resTxerr = c := rfl
@[simp] theorem failTransport_resValid (s : State) (c : Byte) : (s.failTransport c).resValid = true := rfl
@[simp] theorem failTransport_tx (s : State) (c : Byte) : (s.failTransport c).tx = s.tx := rfl
@[simp] theorem failTransport_transport (s : State) (c : Byte) : (s.failTransport c).transport = s.transport := rfl
@[simp] theorem failTransport_params (s : State) (c : Byte) : (s.failTransport c).params = s.params := rfl
@[simp] theorem failTransport_env (s : State) (c : Byte) : (s.failTransport c).env = s.env := rfl

/-! ### `beatMore`: a beat before the last byte -/

@[simp] theorem beatMore_ph (s : State) (b : Byte) : (s.beatMore b).ph = s.ph := rfl
@[simp] theorem beatMore_fb (s : State) (b : Byte) : (s.beatMore b).fb = s.fb := rfl
@[simp] theorem beatMore_fidx (s : State) (b : Byte) : (s.beatMore b).fidx = s.fidx + 1 := rfl
@[simp] theorem beatMore_resKind (s : State) (b : Byte) : (s.beatMore b).resKind = s.resKind := rfl
@[simp] theorem beatMore_errset (s : State) (b : Byte) : (s.beatMore b).errset = s.errset := rfl
@[simp] theorem beatMore_resSent (s : State) (b : Byte) : (s.beatMore b).resSent = s.resSent := rfl
@[simp] theorem beatMore_resTxerr (s : State) (b : Byte) : (s.beatMore b).resTxerr = s.resTxerr := rfl
@[simp] theorem beatMore_resValid (s : State) (b : Byte) : (s.beatMore b).resValid = false := rfl
@[simp] theorem beatMore_tx (s : State) (b : Byte) : (s.beatMore b).tx = s.tx ++ [b] := rfl
@[simp] theorem beatMore_transport (s : State) (b : Byte) : (s.beatMore b).transport = s.transport := rfl
@[simp] theorem beatMore_params (s : State) (b : Byte) : (s.beatMore b).params = s.params := rfl
@[simp] theorem beatMore_env (s : State) (b : Byte) : (s.beatMore b).env = s.env := rfl

/-! ### `beatLast`: the beat of the last byte -/

@[simp] theorem beatLast_ph (s : State) (b : Byte) : (s.beatLast b).ph = .idle := rfl
@[simp] theorem beatLast_fb (s : State) (b : Byte) : (s.beatLast b).fb = s.fb := rfl
@[simp] theorem beatLast_fidx (s : State) (b : Byte) : (s.beatLast b).fidx = s.flen := rfl
@[simp] theorem beatLast_resKind (s : State) (b : Byte) : (s.beatLast b).resKind = .ok := rfl
@[simp] theorem beatLast_errset (s : State) (b : Byte) : (s.beatLast b).errset = s.errset := rfl
@[simp] theorem beatLast_resSent (s : State) (b : Byte) : (s.beatLast b).resSent = s.flen := rfl
@[simp] theorem beatLast_resTxerr (s : State) (b : Byte) : (s.beatLast b).resTxerr = s.resTxerr := rfl
@[simp] theorem beatLast_resValid (s : State) (b : Byte) : (s.beatLast b).resValid = true := rfl
@[simp] theorem beatLast_tx (s : State) (b : Byte) : (s.beatLast b).tx = s.tx ++ [b] := rfl
@[simp] theorem beatLast_transport (s : State) (b : Byte) : (s.beatLast b).transport = s.transport := rfl
@[simp] theorem beatLast_params (s : State) (b : Byte) : (s.beatLast b).params = s.params := rfl
@[simp] theorem beatLast_env (s : State) (b : Byte) : (s.beatLast b).env = s.env := rfl

/-! ### `resetStep`: the reset step -/

@[simp] theorem resetStep_ph (s : State) : (s.resetStep).ph = .idle := rfl
@[simp] theorem resetStep_fb (s : State) : (s.resetStep).fb = [] := rfl
@[simp] theorem resetStep_fidx (s : State) : (s.resetStep).fidx = 0 := rfl
@[simp] theorem resetStep_resKind (s : State) : (s.resetStep).resKind = .none := rfl
@[simp] theorem resetStep_errset (s : State) : (s.resetStep).errset = 0 := rfl
@[simp] theorem resetStep_resSent (s : State) : (s.resetStep).resSent = 0 := rfl
@[simp] theorem resetStep_resTxerr (s : State) : (s.resetStep).resTxerr = 0 := rfl
@[simp] theorem resetStep_resValid (s : State) : (s.resetStep).resValid = false := rfl
@[simp] theorem resetStep_tx (s : State) : (s.resetStep).tx = s.tx := rfl
@[simp] theorem resetStep_transport (s : State) : (s.resetStep).transport = s.transport := rfl
@[simp] theorem resetStep_params (s : State) : (s.resetStep).params = s.params := rfl
@[simp] theorem resetStep_env (s : State) : (s.resetStep).env = s.env := rfl

/-! ### `wait`: waiting -/

@[simp] theorem wait_ph (s : State) : (s.wait).ph = s.ph := rfl
@[simp] theorem wait_fb (s : State) : (s.wait).fb = s.fb := rfl
@[simp] theorem wait_fidx (s : State) : (s.wait).fidx = s.fidx := rfl
@[simp] theorem wait_resKind (s : State) : (s.wait).resKind = s.resKind := rfl
@[simp] theorem wait_errset (s : State) : (s.wait).errset = s.errset := rfl
@[simp] theorem wait_resSent (s : State) : (s.wait).resSent = s.resSent := rfl
@[simp] theorem wait_resTxerr (s : State) : (s.wait).resTxerr = s.resTxerr := rfl
@[simp] theorem wait_resValid (s : State) : (s.wait).resValid = false := rfl
@[simp] theorem wait_tx (s : State) : (s.wait).tx = s.tx := rfl
@[simp] theorem wait_transport (s : State) : (s.wait).transport = s.transport := rfl
@[simp] theorem wait_params (s : State) : (s.wait).params = s.params := rfl
@[simp] theorem wait_env (s : State) : (s.wait).env = s.env := rfl

/-! ### `call`: an operation of the transport -/

@[simp] theorem call_ph (s : State) (c : TransportCall) : (s.call c).ph = s.ph := rfl
@[simp] theorem call_fb (s : State) (c : TransportCall) : (s.call c).fb = s.fb := rfl
@[simp] theorem call_fidx (s : State) (c : TransportCall) : (s.call c).fidx = s.fidx := rfl
@[simp] theorem call_resKind (s : State) (c : TransportCall) : (s.call c).resKind = s.resKind := rfl
@[simp] theorem call_errset (s : State) (c : TransportCall) : (s.call c).errset = s.errset := rfl
@[simp] theorem call_resSent (s : State) (c : TransportCall) : (s.call c).resSent = s.resSent := rfl
@[simp] theorem call_resTxerr (s : State) (c : TransportCall) : (s.call c).resTxerr = s.resTxerr := rfl
@[simp] theorem call_resValid (s : State) (c : TransportCall) : (s.call c).resValid = false := rfl
@[simp] theorem call_tx (s : State) (c : TransportCall) : (s.call c).tx = s.tx := rfl
@[simp] theorem call_params (s : State) (c : TransportCall) : (s.call c).params = s.params := rfl
@[simp] theorem call_env (s : State) (c : TransportCall) : (s.call c).env = s.env := rfl

/-! ### `presentNext`: a command on the port at the next edge -/

@[simp] theorem presentNext_ph (s : State) (d : Descriptor) : (s.presentNext d).ph = .idle := rfl
@[simp] theorem presentNext_fb (s : State) (d : Descriptor) : (s.presentNext d).fb = s.fb := rfl
@[simp] theorem presentNext_fidx (s : State) (d : Descriptor) : (s.presentNext d).fidx = s.fidx := rfl
@[simp] theorem presentNext_resKind (s : State) (d : Descriptor) : (s.presentNext d).resKind = s.resKind := rfl
@[simp] theorem presentNext_errset (s : State) (d : Descriptor) : (s.presentNext d).errset = s.errset := rfl
@[simp] theorem presentNext_resSent (s : State) (d : Descriptor) : (s.presentNext d).resSent = s.resSent := rfl
@[simp] theorem presentNext_resTxerr (s : State) (d : Descriptor) : (s.presentNext d).resTxerr = s.resTxerr := rfl
@[simp] theorem presentNext_resValid (s : State) (d : Descriptor) : (s.presentNext d).resValid = s.resValid := rfl
@[simp] theorem presentNext_tx (s : State) (d : Descriptor) : (s.presentNext d).tx = s.tx := rfl
@[simp] theorem presentNext_transport (s : State) (d : Descriptor) : (s.presentNext d).transport = s.transport := rfl
@[simp] theorem presentNext_params (s : State) (d : Descriptor) : (s.presentNext d).params = s.params := rfl
@[simp] theorem presentNext_env (s : State) (d : Descriptor) : (s.presentNext d).env = .edge (.present d) :: s.env := rfl

/-! ### `flen` depends on the frame alone -/

theorem flen_eq (s : State) : s.flen = BitVec.ofNat 9 s.fb.length := rfl

theorem flen_toNat {s : State} (h : s.fb.length ≤ 257) : s.flen.toNat = s.fb.length := by
  simp [flen_eq]; omega

end Sys2Proof.Machine
end

