-- ==== Sys2Proof/Laws/Ops.lean ====
section
/-! SUPPORT. One lemma per shared operation that says everything it can do: the accept step, the beat, the step of the TX
port, the clock edge, the machine's step. Later proofs cite these and unfold none of the operations. -/

namespace Sys2Proof.Machine

/-! ### Waiting -/

theorem wait_waitedAs (s : State) (rest : List Event) : WaitedAs rest s ({ s with env := rest } : State).wait :=
  ⟨rfl, rfl, rfl, rfl, rfl, rfl, rfl, rfl, rfl, rfl, rfl, rfl, rfl, rfl⟩

/-! ### The accept step -/

theorem accept_ok {r : CommandRule} (h : r.violations = 0) (s : State) : accept r s = .next (s.loadFrame r.frame) := by
  rw [accept, if_pos h]

theorem accept_violating {r : CommandRule} (h : r.violations ≠ 0) (s : State) :
    accept r s = .next (s.refuseViolations r.violations) := by
  rw [accept, if_neg h]

/-- An accepted command either loads its frame or is refused with its violations. -/
theorem accept_cases {r : CommandRule} {s t : State} (h : accept r s = .next t) :
    (r.violations = 0 ∧ t = s.loadFrame r.frame) ∨ (r.violations ≠ 0 ∧ t = s.refuseViolations r.violations) := by
  by_cases hv : r.violations = 0
  · rw [accept_ok hv] at h; cases h; exact .inl ⟨hv, rfl⟩
  · rw [accept_violating hv] at h; cases h; exact .inr ⟨hv, rfl⟩

theorem loadFrame_acceptedAs (F : List Byte) (s : State) : AcceptedAs F s (s.loadFrame F) :=
  ⟨rfl, rfl, rfl, rfl, rfl, rfl, rfl, rfl, rfl, rfl, rfl, rfl, rfl, rfl, rfl⟩

theorem refuseViolations_refusedAs (V : ErrSet) (s : State) : RefusedAs V s (s.refuseViolations V) :=
  ⟨rfl, rfl, rfl, rfl, rfl, rfl, rfl, rfl, rfl, rfl, rfl, rfl⟩

/-- Every command is the accept step of its rule. -/
theorem exec_eq_accept (i : Instr) (s : State) : exec i s = accept (ruleOf s.params i) s := by
  cases i <;> rfl

theorem exec_ok {i : Instr} {s : State} (h : (ruleOf s.params i).violations = 0) :
    exec i s = .next (s.loadFrame (ruleOf s.params i).frame) := by
  rw [exec_eq_accept, accept_ok h]

theorem exec_violating {i : Instr} {s : State} (h : (ruleOf s.params i).violations ≠ 0) :
    exec i s = .next (s.refuseViolations (ruleOf s.params i).violations) := by
  rw [exec_eq_accept, accept_violating h]

/-! ### The beat and the TX port -/

/-- A beat takes the offered byte: the last one ends the command, an earlier one moves the index on. -/
theorem beat_cases {s t : State} (h : beat s = .next t) :
    ∃ b, s.fb[s.fidx.toNat]? = some b ∧
      ((s.fidx.toNat + 1 = s.fb.length ∧ t = s.beatLast b) ∨ (s.fidx.toNat + 1 ≠ s.fb.length ∧ t = s.beatMore b)) := by
  unfold beat at h
  split at h
  · cases h
  · next b hb =>
    refine ⟨b, hb, ?_⟩
    split at h <;> cases h
    · exact .inl ⟨‹_›, rfl⟩
    · exact .inr ⟨‹_›, rfl⟩

/-- With a byte offered the beat answers. -/
theorem beat_of_offered {s : State} (h : s.fidx.toNat < s.fb.length) :
    beat s = .next (if s.fidx.toNat + 1 = s.fb.length then s.beatLast s.fb[s.fidx.toNat] else s.beatMore s.fb[s.fidx.toNat]) := by
  simp [beat, List.getElem?_eq_getElem h]

/-- The step of the TX port: a failure, a beat, or waiting. -/
theorem txStep_cases {w : TxWires} {s t : State} (h : txStep w s = .next t) :
    (w.error = true ∧ t = s.failTransport w.ecode) ∨ (w.error = false ∧ w.ready = true ∧ beat s = .next t) ∨
    (w.error = false ∧ w.ready = false ∧ t = s.wait) := by
  unfold txStep at h
  split at h
  · cases h; exact .inl ⟨‹_›, rfl⟩
  · split at h
    · exact .inr (.inl ⟨by simpa using ‹¬w.error = true›, ‹_›, h⟩)
    · cases h; exact .inr (.inr ⟨by simpa using ‹¬w.error = true›, by simpa using ‹¬w.ready = true›, rfl⟩)

/-! ### The clock edge and the step -/

/-- The accept step of a descriptor: a decoded command, or an illegal selector. -/
theorem acceptDescriptor_cases {d : Descriptor} {s t : State} (h : acceptDescriptor d s = .next t) :
    (∃ i, decode d = .ok i ∧ exec i s = .next t) ∨ (∃ e, decode d = .error e ∧ t = s.refuseIllegal) := by
  unfold acceptDescriptor at h
  split at h
  · exact .inl ⟨_, ‹_›, h⟩
  · cases h; exact .inr ⟨_, ‹_›, rfl⟩

/-- One clock edge: reset, waiting, an accept step, or a step of the TX port. -/
theorem clockEdge_cases {p : PortSample} {s t : State} (h : clockEdge p s = .next t) :
    (p.rst = true ∧ t = s.resetStep) ∨
    (p.rst = false ∧ s.ph = .idle ∧ p.cmd = none ∧ t = s.wait) ∨
    (p.rst = false ∧ s.ph = .idle ∧ ∃ d, p.cmd = some d ∧ acceptDescriptor d s = .next t) ∨
    (p.rst = false ∧ s.ph = .emit ∧ txStep (s.transport.answer p.tx) s = .next t) := by
  unfold clockEdge at h
  split at h
  · cases h; exact .inl ⟨‹_›, rfl⟩
  · have hr : p.rst = false := by simpa using ‹¬p.rst = true›
    split at h
    · split at h
      · cases h; exact .inr (.inl ⟨hr, ‹_›, ‹_›, rfl⟩)
      · exact .inr (.inr (.inl ⟨hr, ‹_›, _, ‹_›, h⟩))
    · exact .inr (.inr (.inr ⟨hr, ‹_›, h⟩))

theorem step_edge {s : State} {p : PortSample} {rest : List Event} (h : s.env = .edge p :: rest) :
    step s = clockEdge p { s with env := rest } := by
  simp [step, takeEvent, h]

theorem step_call {s : State} {c : TransportCall} {rest : List Event} (h : s.env = .call c :: rest) :
    step s = .next (({ s with env := rest } : State).call c) := by
  simp [step, takeEvent, h]

theorem step_quiet {s : State} (h : s.env = []) : step s = clockEdge .quiet s := by
  simp [step, takeEvent, h]

/-- Everything a step can do: the state it starts from is `s` with the rest of the events, and it is a clock edge or a
call of the transport. -/
theorem step_cases {s t : State} (h : step s = .next t) :
    ∃ rest, (∃ p, clockEdge p { s with env := rest } = .next t) ∨ (∃ c, t = ({ s with env := rest } : State).call c) := by
  unfold step takeEvent at h
  split at h
  · next he => exact ⟨[], .inl ⟨.quiet, by rw [← he]; exact h⟩⟩
  · exact ⟨_, .inl ⟨_, h⟩⟩
  · cases h; exact ⟨_, .inr ⟨_, rfl⟩⟩

end Sys2Proof.Machine
end

