-- ==== Sys2Proof/Laws/PerInstr.lean ====
section
/-! SUPPORT. Statements about every command as syntax, one lemma per constructor of `Instr`. -/

namespace Sys2Proof.Laws.OpcodeByte

open Sys2Proof.Machine

/-- R51: the selector's low byte is the first byte of the frame the command will produce. -/
def Statement (i : Instr) : Prop := ∀ p : Params, (ruleOf p i).frame.head? = some (encode i).op

theorem start : Statement .start := fun _ => rfl
theorem baud (a : Byte) : Statement (.baud a) := fun _ => rfl
theorem safe : Statement .safe := fun _ => rfl
theorem full : Statement .full := fun _ => rfl
theorem power : Statement .power := fun _ => rfl
theorem spot : Statement .spot := fun _ => rfl
theorem clean : Statement .clean := fun _ => rfl
theorem max : Statement .max := fun _ => rfl
theorem demo (a : Byte) : Statement (.demo a) := fun _ => rfl
theorem drive (a b : Word) : Statement (.drive a b) := fun _ => rfl
theorem motors (a : Byte) : Statement (.motors a) := fun _ => rfl
theorem leds (a b c : Byte) : Statement (.leds a b c) := fun _ => rfl
theorem song (a b : Byte) (c : List Note) : Statement (.song a b c) := fun _ => rfl
theorem play (a : Byte) : Statement (.play a) := fun _ => rfl
theorem sensors (a : Byte) : Statement (.sensors a) := fun _ => rfl
theorem seekDock : Statement .seekDock := fun _ => rfl
theorem pwmMotors (a b c : Byte) : Statement (.pwmMotors a b c) := fun _ => rfl
theorem driveDirect (a b : Word) : Statement (.driveDirect a b) := fun _ => rfl
theorem drivePWM (a b : Word) : Statement (.drivePWM a b) := fun _ => rfl
theorem digitalOutput (a : Byte) : Statement (.digitalOutput a) := fun _ => rfl
theorem stream (a : List Byte) : Statement (.stream a) := fun _ => rfl
theorem queryList (a : List Byte) : Statement (.queryList a) := fun _ => rfl
theorem pauseResumeStream (a : Bool) : Statement (.pauseResumeStream a) := fun _ => rfl
theorem sendIR (a : Byte) : Statement (.sendIR a) := fun _ => rfl
theorem schedulingLEDs (a b : Byte) : Statement (.schedulingLEDs a b) := fun _ => rfl
theorem digitLEDsRaw (a b c d : Byte) : Statement (.digitLEDsRaw a b c d) := fun _ => rfl
theorem digitLEDsASCII (a : List Byte) : Statement (.digitLEDsASCII a) := fun _ => rfl
theorem buttons (a : Byte) : Statement (.buttons a) := fun _ => rfl
theorem schedule (a : Byte) (b : List TimeOfDay) : Statement (.schedule a b) := fun _ => rfl
theorem setDateTime (a b c : Byte) : Statement (.setDateTime a b c) := fun _ => rfl

end Sys2Proof.Laws.OpcodeByte
end

