-- ==== Sys2Proof/Laws/Tx.lean ====
section
/-! SUPPORT. The TX stream (20_memory.md R30): a write appends one byte at the end, leaves every earlier byte in its place,
and only a beat writes. A list of bytes has one form only, so there is no canonical form to keep (log 5). -/

namespace Sys2Proof.Machine

/-- Read after write: the byte appended is the last one. -/
theorem tx_append_last (tx : List Byte) (b : Byte) : (tx ++ [b])[tx.length]? = some b := by simp

/-- A write leaves every earlier byte alone. -/
theorem tx_append_earlier {tx : List Byte} {b : Byte} {k : Nat} (h : k < tx.length) : (tx ++ [b])[k]? = tx[k]? := by
  simp [List.getElem?_append, h]

/-- The accept step writes nothing to TX. -/
theorem accept_tx {r : CommandRule} {s t : State} (h : accept r s = .next t) : t.tx = s.tx := by
  obtain ⟨-, rfl⟩ | ⟨-, rfl⟩ := accept_cases h <;> rfl

/-- No command writes to TX by itself: its frame is handed over by beats. -/
theorem exec_tx {i : Instr} {s t : State} (h : exec i s = .next t) : t.tx = s.tx :=
  accept_tx (exec_eq_accept i s ▸ h)

/-- A beat appends the offered byte. -/
theorem beat_tx {s t : State} (h : beat s = .next t) : ∃ b, s.fb[s.fidx.toNat]? = some b ∧ t.tx = s.tx ++ [b] := by
  obtain ⟨b, hb, ⟨-, rfl⟩ | ⟨-, rfl⟩⟩ := beat_cases h <;> exact ⟨b, hb, rfl⟩

end Sys2Proof.Machine
end

