-- ==== Sys2Proof/Machine/Assembler.lean ====
section
/-! DEFINITION. The written form of a command (30_encoding.md R66, R67): the mnemonic, then the arguments in parentheses in
the order of the frame's payload. Notation only; no step uses it. Points the rule leaves open: log 22. -/

namespace Sys2Proof.Machine

/-- A decimal number. -/
def asmNat (n : Nat) : List Char := Nat.toDigits 10 n

/-- A byte, unsigned. -/
def asmByte (b : Byte) : List Char := asmNat b.toNat

/-- An `int16`, signed. -/
def asmWord (w : Word) : List Char := if w.toInt < 0 then '-' :: asmNat w.toInt.natAbs else asmNat w.toInt.toNat

/-- A boolean. -/
def asmBool (b : Bool) : List Char := if b then ['t', 'r', 'u', 'e'] else ['f', 'a', 'l', 's', 'e']

/-- Flags as a binary number, bit 7 left. -/
def asmFlags (f : Byte) : List Char :=
  ['0', 'b'] ++ (List.range 8).map fun j => if f.getLsbD (7 - j) then '1' else '0'

/-- Arguments with `, ` between them. -/
def asmCommas : List (List Char) → List Char
  | [] => []
  | [a] => a
  | a :: b :: rest => a ++ [',', ' '] ++ asmCommas (b :: rest)

/-- A list argument in brackets. -/
def asmList (l : List (List Char)) : List Char := ['['] ++ asmCommas l ++ [']']

/-- A note, `(number,duration)`. -/
def asmNote (n : Note) : List Char := ['('] ++ asmByte n.number ++ [','] ++ asmByte n.duration ++ [')']

/-- Two digits at least. -/
def asmTwo (b : Byte) : List Char := if b.toNat < 10 then '0' :: asmByte b else asmByte b

/-- The days from number `i` on: `-` for an inactive day, else `hh:mm`. -/
def asmDays (flags : Byte) : Nat → List TimeOfDay → List (List Char)
  | _, [] => []
  | i, t :: ts =>
    (if flags.getLsbD i then asmTwo t.hour ++ [':'] ++ asmTwo t.minute else ['-']) :: asmDays flags (i + 1) ts

/-- A call. -/
def asmCall (name : String) (args : List (List Char)) : List Char := name.toList ++ ['('] ++ asmCommas args ++ [')']

/-- The written form of a command (R66). DESIGN CHOICE (log 22): R66 gives a message only as `"text"`, so each byte of it is
written as the character with that code, one above 127, a control code or a quote too, with no escape. -/
def asm : Instr → List Char
  | .start => asmCall "Start" []
  | .baud code => asmCall "Baud" [asmByte code]
  | .safe => asmCall "Safe" []
  | .full => asmCall "Full" []
  | .power => asmCall "Power" []
  | .spot => asmCall "Spot" []
  | .clean => asmCall "Clean" []
  | .max => asmCall "Max" []
  | .demo id => asmCall "Demo" [asmByte id]
  | .drive velocity radius => asmCall "Drive" [asmWord velocity, asmWord radius]
  | .motors flags => asmCall "Motors" ((List.range 5).map fun i => asmBool (flags.getLsbD i))
  | .leds flags color intensity => asmCall "LEDs" [asmFlags flags, asmByte color, asmByte intensity]
  | .song slot _ notes => asmCall "Song" [asmByte slot, asmList (notes.map asmNote)]
  | .play slot => asmCall "Play" [asmByte slot]
  | .sensors packetId => asmCall "Sensors" [asmByte packetId]
  | .seekDock => asmCall "SeekDock" []
  | .pwmMotors main side vacuum => asmCall "PWMMotors" [asmByte main, asmByte side, asmByte vacuum]
  | .driveDirect right left => asmCall "DriveDirect" [asmWord right, asmWord left]
  | .drivePWM right left => asmCall "DrivePWM" [asmWord right, asmWord left]
  | .digitalOutput flags => asmCall "DigitalOutput" [asmFlags flags]
  | .stream ids => asmCall "Stream" [asmList (ids.map asmByte)]
  | .queryList ids => asmCall "QueryList" [asmList (ids.map asmByte)]
  | .pauseResumeStream resume => asmCall "PauseResumeStream" [asmBool resume]
  | .sendIR byte => asmCall "SendIR" [asmByte byte]
  | .schedulingLEDs weekday flags => asmCall "SchedulingLEDs" [asmByte weekday, asmFlags flags]
  | .digitLEDsRaw d0 d1 d2 d3 => asmCall "DigitLEDsRaw" [asmByte d0, asmByte d1, asmByte d2, asmByte d3]
  | .digitLEDsASCII message =>
    asmCall "DigitLEDsASCII" [[Char.ofNat 34] ++ message.map (fun b => Char.ofNat b.toNat) ++ [Char.ofNat 34]]
  | .buttons flags => asmCall "Buttons" [asmFlags flags]
  | .schedule flags times => asmCall "Schedule" [asmList (asmDays flags 0 times)]
  | .setDateTime weekday hour minute => asmCall "SetDateTime" [asmByte weekday, asmByte hour, asmByte minute]

/-- The written form of a pseudo-command (R67). -/
def asmPseudo : PseudoCommand → List Char
  | .halt => asmCall "halt" []
  | .disableSchedule => asmCall "DisableSchedule" []
  | .pauseStream => asmCall "PauseStream" []
  | .resumeStream => asmCall "ResumeStream" []

end Sys2Proof.Machine
end

