-- ==== Sys2Proof/Tests/Slice0.lean ====
section
/-! SUPPORT. The model's own tests. Expected results come from the spec: its encoding tables (30_encoding.md R53, R60) and
its vectors (95_test_vectors.md: S, V, T, L). Each test is one decoding or one step. After them, one witness for each
obligation that has hypotheses: a state and operands that meet all of them together, each clause at its boundary. -/

namespace Sys2Proof.Tests

open Sys2Proof.Machine

/-! ### Small states and checks -/

/-- What a step answers satisfies a check. -/
def reaches (r : Result) (check : State → Bool) : Bool :=
  match r with
  | .next t => check t
  | .fault _ | .refused _ => false

/-- Presented after reset, the descriptor is accepted with the frame `F`. -/
def loads (d : Descriptor) (F : List Byte) : Bool :=
  reaches (step (State.reset.presentNext d)) fun t =>
    t.ph == .emit && t.fb == F && t.fidx == 0 && t.resKind == .none && t.errset == 0 && !t.resValid && t.tx == []

/-- Presented after reset, the descriptor is refused with the violations `V`. -/
def violates (d : Descriptor) (V : ErrSet) : Bool :=
  reaches (step (State.reset.presentNext d)) fun t =>
    t.ph == .idle && t.fb == [] && t.resKind == .validation && t.errset == V && t.resSent == 0 && t.resValid && t.tx == []

/-- Presented after reset, the descriptor is reported illegal. -/
def illegal (d : Descriptor) : Bool :=
  reaches (step (State.reset.presentNext d)) fun t =>
    t.ph == .idle && t.fb == [] && t.resKind == .illegal && t.errset == 0 && t.resSent == 0 && t.resValid && t.tx == []

/-- The transport with an open channel. -/
def opened : Transport := { chan := some 0, opened := 1, callInFrame := false, lastReturn := .none }

/-- Reset, with an open channel. -/
def ready : State := { State.reset with transport := opened }

/-- `Drive(100, -1)` with `k` bytes acknowledged (vectors T1 to T12). -/
def atByte (k : Nat) : State :=
  { ready with
    ph := .emit, fb := [0x89, 0x00, 0x64, 0xFF, 0xFF], fidx := BitVec.ofNat 9 k
    tx := [0x89, 0x00, 0x64, 0xFF, 0xFF].take k }

/-- The step of one event. -/
def take (e : Event) (s : State) : Result := step { s with env := [e] }

/-! ### Well-formedness: an ill-formed term for each check -/

theorem test_wf_refuses_song : Instr.wf (.song 0 2 [⟨60, 1⟩]) = false := by decide
theorem test_wf_refuses_stream : Instr.wf (.stream (List.replicate 256 0)) = false := by decide +kernel
theorem test_wf_refuses_queryList : Instr.wf (.queryList (List.replicate 256 0)) = false := by decide +kernel
theorem test_wf_refuses_digitLEDsASCII : Instr.wf (.digitLEDsASCII (List.replicate 256 0)) = false := by decide +kernel
theorem test_wf_refuses_schedule : Instr.wf (.schedule 0 (List.replicate 6 ⟨0, 0⟩)) = false := by decide

/-! ### Decoding: descriptors written out from R53 and R60, one per command -/

theorem test_decode_start : decode (.ofOp 0x80) = .ok .start := rfl
theorem test_decode_baud : decode { Descriptor.ofOp 0x81 with b0 := 0x0B } = .ok (.baud 11) := rfl
theorem test_decode_safe : decode (.ofOp 0x83) = .ok .safe := rfl
theorem test_decode_full : decode (.ofOp 0x84) = .ok .full := rfl
theorem test_decode_power : decode (.ofOp 0x85) = .ok .power := rfl
theorem test_decode_spot : decode (.ofOp 0x86) = .ok .spot := rfl
theorem test_decode_clean : decode (.ofOp 0x87) = .ok .clean := rfl
theorem test_decode_max : decode (.ofOp 0x88) = .ok .max := rfl
theorem test_decode_demo :
    decode { Descriptor.ofOp 0x88 with var := true, b0 := 0xFF } =
      .ok (.demo 255) := rfl
theorem test_decode_drive :
    decode { Descriptor.ofOp 0x89 with w0 := 0x01F4, w1 := 0xF830 } =
      .ok (.drive 500 (-2000)) := rfl
theorem test_decode_motors :
    decode { Descriptor.ofOp 0x8A with flags := 0b00010101 } =
      .ok (.motors 0b10101) := rfl
theorem test_decode_leds :
    decode { Descriptor.ofOp 0x8B with flags := 0b00000101, b0 := 0x00, b1 := 0xFF } =
      .ok (.leds 5 0 255) := rfl
theorem test_decode_song :
    decode { Descriptor.ofOp 0x8C with b0 := 0x03, len := 2, list := padList [0x1F, 0xFF, 0x7F, 0x00] } =
      .ok (.song 3 2 [⟨31, 255⟩, ⟨127, 0⟩]) := rfl
theorem test_decode_play : decode { Descriptor.ofOp 0x8D with b0 := 0x03 } = .ok (.play 3) := rfl
theorem test_decode_sensors : decode { Descriptor.ofOp 0x8E with b0 := 0x64 } = .ok (.sensors 100) := rfl
theorem test_decode_seekDock : decode (.ofOp 0x8F) = .ok .seekDock := rfl
theorem test_decode_pwmMotors :
    decode { Descriptor.ofOp 0x90 with b0 := 0x7F, b1 := 0x81, b2 := 0x7F } =
      .ok (.pwmMotors 127 129 127) := rfl
theorem test_decode_driveDirect :
    decode { Descriptor.ofOp 0x91 with w0 := 0x01F4, w1 := 0xFE0C } =
      .ok (.driveDirect 500 (-500)) := rfl
theorem test_decode_drivePWM :
    decode { Descriptor.ofOp 0x92 with w0 := 0x00FF, w1 := 0xFF01 } =
      .ok (.drivePWM 255 (-255)) := rfl
theorem test_decode_digitalOutput :
    decode { Descriptor.ofOp 0x93 with flags := 0b00001111 } =
      .ok (.digitalOutput 15) := rfl
theorem test_decode_stream :
    decode { Descriptor.ofOp 0x94 with len := 3, list := padList [0x07, 0x13, 0x14] } =
      .ok (.stream [7, 19, 20]) := rfl
theorem test_decode_queryList :
    decode { Descriptor.ofOp 0x95 with len := 2, list := padList [0x19, 0x1A] } =
      .ok (.queryList [25, 26]) := rfl
theorem test_decode_pauseResumeStream :
    decode { Descriptor.ofOp 0x96 with flags := 1 } =
      .ok (.pauseResumeStream true) := rfl
theorem test_decode_sendIR : decode { Descriptor.ofOp 0x97 with b0 := 0xFF } = .ok (.sendIR 255) := rfl
theorem test_decode_schedulingLEDs :
    decode { Descriptor.ofOp 0xA2 with b0 := 0x41, flags := 0b00000011 } =
      .ok (.schedulingLEDs 0x41 3) := rfl
theorem test_decode_digitLEDsRaw :
    decode { Descriptor.ofOp 0xA3 with b0 := 0xFF, b1 := 0x00, b2 := 0x80, b3 := 0x7F } =
      .ok (.digitLEDsRaw 255 0 128 127) := rfl
theorem test_decode_digitLEDsASCII :
    decode { Descriptor.ofOp 0xA4 with len := 5, list := padList [0x41, 0x42, 0x43, 0x44, 0x45] } =
      .ok (.digitLEDsASCII [0x41, 0x42, 0x43, 0x44, 0x45]) := rfl
theorem test_decode_buttons :
    decode { Descriptor.ofOp 0xA5 with flags := 0b10000100 } =
      .ok (.buttons 0x84) := rfl
theorem test_decode_schedule :
    decode { Descriptor.ofOp 0xA7 with flags := 0b10000010, list := padList [0x00, 0x00, 0x07, 0x0F, 0x63, 0x63] } =
      .ok (.schedule 0b10000010 [⟨0, 0⟩, ⟨7, 15⟩, ⟨99, 99⟩, ⟨0, 0⟩, ⟨0, 0⟩, ⟨0, 0⟩, ⟨0, 0⟩]) := rfl
theorem test_decode_setDateTime :
    decode { Descriptor.ofOp 0xA8 with b0 := 0x06, b1 := 0x17, b2 := 0x3B } =
      .ok (.setDateTime 6 23 59) := rfl

/-! ### The accept step: vectors of 95_test_vectors.md part 2, one theorem per command -/

/-- V1, V9. -/
theorem test_start :
    loads (.ofOp 0x80) [0x80] ∧
    loads { Descriptor.ofOp 0x80 with var := true, w0 := 0xFFFF, b0 := 0xFF, flags := 0xFF, len := 9 } [0x80] := by
  decide +kernel

/-- V11, V12. -/
theorem test_baud :
    loads { Descriptor.ofOp 0x81 with b0 := 0x0B } [0x81, 0x0B] ∧
    violates { Descriptor.ofOp 0x81 with b0 := 0x0C } 0x00000001 := by
  decide +kernel

/-- V2. -/
theorem test_safe :
    loads (.ofOp 0x83) [0x83] := by
  decide +kernel

/-- V3. -/
theorem test_full :
    loads (.ofOp 0x84) [0x84] := by
  decide +kernel

/-- V4. -/
theorem test_power :
    loads (.ofOp 0x85) [0x85] := by
  decide +kernel

/-- V5. -/
theorem test_spot :
    loads (.ofOp 0x86) [0x86] := by
  decide +kernel

/-- V6. -/
theorem test_clean :
    loads (.ofOp 0x87) [0x87] := by
  decide +kernel

/-- V7. -/
theorem test_max :
    loads (.ofOp 0x88) [0x88] := by
  decide +kernel

/-- V15. -/
theorem test_demo :
    loads { Descriptor.ofOp 0x88 with var := true, b0 := 0xFF } [0x88, 0xFF] := by
  decide +kernel

/-- V63, V60, V66, V69, V71. -/
theorem test_drive :
    loads { Descriptor.ofOp 0x89 with w0 := 0x01F4, w1 := 0xF830 } [0x89, 0x01, 0xF4, 0xF8, 0x30] ∧
    loads { Descriptor.ofOp 0x89 with w0 := 0x00C8, w1 := 0x8000 } [0x89, 0x00, 0xC8, 0x80, 0x00] ∧
    violates { Descriptor.ofOp 0x89 with w0 := 0x01F5 } 0x00000001 ∧
    violates { Descriptor.ofOp 0x89 with w1 := 0xF82F } 0x00000002 ∧
    violates { Descriptor.ofOp 0x89 with w1 := 0x7FFE } 0x00000002 := by
  decide +kernel

/-- V89, V92. -/
theorem test_motors :
    loads { Descriptor.ofOp 0x8A with flags := 0b00010101 } [0x8A, 0x15] ∧
    loads { Descriptor.ofOp 0x8A with flags := 0xFF } [0x8A, 0x1F] := by
  decide +kernel

/-- V95, V96. -/
theorem test_leds :
    loads { Descriptor.ofOp 0x8B with flags := 0b00000101, b0 := 0x00, b1 := 0xFF } [0x8B, 0x05, 0x00, 0xFF] ∧
    loads { Descriptor.ofOp 0x8B with flags := 0b11110000, b0 := 0x80, b1 := 0x80 } [0x8B, 0x00, 0x80, 0x80] := by
  decide +kernel

/-- V33, V37, V39. -/
theorem test_song :
    loads { Descriptor.ofOp 0x8C with b0 := 0x03, len := 2, list := padList [0x1F, 0xFF, 0x7F, 0x00] }
      [0x8C, 0x03, 0x02, 0x1F, 0xFF, 0x7F, 0x00] ∧
    violates { Descriptor.ofOp 0x8C with b0 := 0x04, len := 3, list := padList [0x1E, 0x01, 0x3C, 0x01, 0x80, 0x01] }
      0x00010005 ∧
    violates { Descriptor.ofOp 0x8C with len := 17, list := padList ([0x1E, 0x08] ++ (List.replicate 15 [0x3C, 0x08]).flatten ++ [0xC8, 0x08]) }
      0x00020001 := by
  decide +kernel

/-- V17, V18. -/
theorem test_play :
    loads { Descriptor.ofOp 0x8D with b0 := 0x03 } [0x8D, 0x03] ∧
    violates { Descriptor.ofOp 0x8D with b0 := 0x04 } 0x00000001 := by
  decide +kernel

/-- V20. -/
theorem test_sensors :
    loads { Descriptor.ofOp 0x8E with b0 := 0x64 } [0x8E, 0x64] := by
  decide +kernel

/-- V8. -/
theorem test_seekDock :
    loads (.ofOp 0x8F) [0x8F] := by
  decide +kernel

/-- V21, V23. -/
theorem test_pwmMotors :
    loads { Descriptor.ofOp 0x90 with b0 := 0x7F, b1 := 0x81, b2 := 0x7F } [0x90, 0x7F, 0x81, 0x7F] ∧
    violates { Descriptor.ofOp 0x90 with b2 := 0x80 } 0x00000004 := by
  decide +kernel

/-- V75, V79, V80. -/
theorem test_driveDirect :
    loads { Descriptor.ofOp 0x91 with w0 := 0x01F4, w1 := 0xFE0C } [0x91, 0x01, 0xF4, 0xFE, 0x0C] ∧
    violates { Descriptor.ofOp 0x91 with w0 := 0x01F5, w1 := 0xFE0B } 0x00000003 ∧
    violates { Descriptor.ofOp 0x91 with w1 := 0x01F5 } 0x00000002 := by
  decide +kernel

/-- V82, V86, V87. -/
theorem test_drivePWM :
    loads { Descriptor.ofOp 0x92 with w0 := 0x00FF, w1 := 0xFF01 } [0x92, 0x00, 0xFF, 0xFF, 0x01] ∧
    violates { Descriptor.ofOp 0x92 with w0 := 0x0100 } 0x00000001 ∧
    violates { Descriptor.ofOp 0x92 with w1 := 0xFF00 } 0x00000002 := by
  decide +kernel

/-- V99. -/
theorem test_digitalOutput :
    loads { Descriptor.ofOp 0x93 with flags := 0b00001111 } [0x93, 0x07] := by
  decide +kernel

/-- V40, V41. -/
theorem test_stream :
    loads { Descriptor.ofOp 0x94 with len := 3, list := padList [0x07, 0x13, 0x14] } [0x94, 0x03, 0x07, 0x13, 0x14] ∧
    loads (.ofOp 0x94) [0x94, 0x00] := by
  decide +kernel

/-- V44. -/
theorem test_queryList :
    loads { Descriptor.ofOp 0x95 with len := 2, list := padList [0x19, 0x1A] } [0x95, 0x02, 0x19, 0x1A] := by
  decide +kernel

/-- V26, V27. -/
theorem test_pauseResumeStream :
    loads { Descriptor.ofOp 0x96 with flags := 1 } [0x96, 0x01] ∧
    loads { Descriptor.ofOp 0x96 with flags := 0b11111110 } [0x96, 0x00] := by
  decide +kernel

/-- V29. -/
theorem test_sendIR :
    loads { Descriptor.ofOp 0x97 with b0 := 0xFF } [0x97, 0xFF] := by
  decide +kernel

/-- V101, V102. -/
theorem test_schedulingLEDs :
    loads { Descriptor.ofOp 0xA2 with b0 := 0x41, flags := 0b00000011 } [0xA2, 0x41, 0x03] ∧
    loads { Descriptor.ofOp 0xA2 with b0 := 0xFF, flags := 0xFF } [0xA2, 0xFF, 0x1F] := by
  decide +kernel

/-- V31. -/
theorem test_digitLEDsRaw :
    loads { Descriptor.ofOp 0xA3 with b0 := 0xFF, b1 := 0x00, b2 := 0x80, b3 := 0x7F }
      [0xA3, 0xFF, 0x00, 0x80, 0x7F] := by
  decide +kernel

/-- V47, V53. -/
theorem test_digitLEDsASCII :
    loads { Descriptor.ofOp 0xA4 with len := 5, list := padList [0x41, 0x42, 0x43, 0x44, 0x45] }
      [0xA4, 0x41, 0x42, 0x43, 0x44] ∧
    loads { Descriptor.ofOp 0xA4 with len := 1, list := padList [0x41, 0x58, 0x59, 0x5A] }
      [0xA4, 0x41, 0x20, 0x20, 0x20] := by
  decide +kernel

/-- V105. -/
theorem test_buttons :
    loads { Descriptor.ofOp 0xA5 with flags := 0b10000100 } [0xA5, 0x84] := by
  decide +kernel

/-- V113, V112. -/
theorem test_schedule :
    loads { Descriptor.ofOp 0xA7 with flags := 0b10000010, list := padList [0x00, 0x00, 0x07, 0x0F, 0x63, 0x63] }
      [0xA7, 0x02, 0x00, 0x00, 0x07, 0x0F, 0x00, 0x00, 0x00, 0x00, 0x00, 0x00, 0x00, 0x00, 0x00, 0x00] ∧
    violates { Descriptor.ofOp 0xA7 with flags := 0b01000001, list := padList [0x18, 0x00, 0x00, 0x00, 0x00, 0x00, 0x00, 0x00, 0x00, 0x00, 0x00, 0x00, 0x0C, 0x3C] }
      0x00002001 := by
  decide +kernel

/-- V117, V118, V120. -/
theorem test_setDateTime :
    loads { Descriptor.ofOp 0xA8 with b0 := 0x06, b1 := 0x17, b2 := 0x3B } [0xA8, 0x06, 0x17, 0x3B] ∧
    violates { Descriptor.ofOp 0xA8 with b0 := 0x07, b1 := 0x18, b2 := 0x3C } 0x00000007 ∧
    violates { Descriptor.ofOp 0xA8 with b1 := 0x18 } 0x00000002 := by
  decide +kernel
/-! ### Selectors and the table's words -/

/-- V122 to V130. -/
theorem test_illegal_selectors :
    illegal (.ofOp 0x00) ∧ illegal (.ofOp 0x7F) ∧ illegal (.ofOp 0x82) ∧ illegal { Descriptor.ofOp 0x82 with var := true } ∧
    illegal (.ofOp 0x98) ∧ illegal (.ofOp 0xA1) ∧ illegal (.ofOp 0xA6) ∧ illegal (.ofOp 0xA9) ∧ illegal (.ofOp 0xFF) := by
  decide +kernel

/-- Rows of opcode_table.json: bits 7..0 are `OP`, bit 8 is `VAR`. -/
theorem test_table_words :
    decodeTableWord 16 0x088 = some .max ∧ decodeTableWord 16 0x188 = some (.demo 0) ∧
    decodeTableWord 8 0x8F = some .seekDock ∧ decodeTableWord 8 0x92 = some (.drivePWM 0 0) ∧
    decodeTableWord 8 0xA5 = some (.buttons 0) ∧ decodeTableWord 8 0xA6 = none := by
  decide +kernel

/-- A word of the table runs as the first command after reset. -/
theorem test_fetch_word :
    reaches (step (State.reset.withFetchWord 16 0x188)) (fun t => t.fb == [0x88, 0x00] && t.ph == .emit) := by
  decide +kernel

/-- R62, the whole set of illegal opcodes: the list of V122 to V130 and everything between. -/
theorem test_illegal_set :
    (List.range 256).all (fun n =>
      (decode (.ofOp (BitVec.ofNat 8 n))).toOption.isNone ==
        (decide (n ≤ 127) || n == 130 || (decide (152 ≤ n) && decide (n ≤ 161)) || n == 166 || decide (169 ≤ n))) := by
  decide +kernel

/-! ### Steps of the ports: vectors of 95_test_vectors.md part 3 -/

/-- T2. -/
theorem test_outputs_before_the_first_ack :
    (atByte 0).cmdReady = false ∧ (atByte 0).txValid = true ∧ (atByte 0).txData = some 0x89 ∧ (atByte 0).txLast = false := by
  decide

/-- T3. -/
theorem test_outputs_at_the_last_byte : (atByte 4).txData = some 0xFF ∧ (atByte 4).txLast = true := by decide

/-- T1: the fifth acknowledgement. -/
theorem test_last_ack :
    reaches (take (.edge .ack) (atByte 4)) fun t =>
      t.ph == .idle && t.flen == 5 && t.fidx == 5 && t.resKind == .ok && t.errset == 0 && t.resSent == 5 &&
      t.resTxerr == 0 && t.resValid && t.tx == [0x89, 0x00, 0x64, 0xFF, 0xFF] := by
  decide

/-- T1: an acknowledgement before the last. -/
theorem test_earlier_ack :
    reaches (take (.edge .ack) (atByte 1)) fun t =>
      t.ph == .emit && t.fidx == 2 && t.resKind == .none && !t.resValid && t.tx == [0x89, 0x00] := by
  decide

/-- T4: the channel is not open. -/
theorem test_fail_without_channel :
    reaches (take (.edge (.fail 0x01)) { State.reset with ph := .emit, fb := [0x80] }) fun t =>
      t.ph == .idle && t.flen == 1 && t.fidx == 0 && t.resKind == .transport && t.resSent == 0 && t.resTxerr == 0x01 &&
      t.resValid && t.tx == [] := by
  decide

/-- T5: the fail step after three bytes. -/
theorem test_fail_inside_a_frame :
    reaches (take (.edge (.fail 0x02)) (atByte 3)) fun t =>
      t.ph == .idle && t.flen == 5 && t.fidx == 3 && t.resKind == .transport && t.errset == 0 && t.resSent == 3 &&
      t.resTxerr == 0x02 && t.resValid && t.tx == [0x89, 0x00, 0x64] := by
  decide

/-- T6: both answers at once. -/
theorem test_error_wins_over_ready :
    reaches (take (.edge (.both 0x02)) (atByte 4)) fun t =>
      t.ph == .idle && t.fidx == 4 && t.resKind == .transport && t.resSent == 4 && t.tx == [0x89, 0x00, 0x64, 0xFF] := by
  decide

/-- T8: a violating command meets a closed channel and does not notice it; `step` from reset is that case already. -/
theorem test_validation_before_transport :
    State.reset.transport.chan = none ∧ violates { Descriptor.ofOp 0x89 with w0 := 0x01F5 } 1 := by
  decide +kernel

/-- T10: reset inside a frame keeps what stands on TX. -/
theorem test_reset_inside_a_frame :
    reaches (take (.edge .reset) (atByte 2)) fun t =>
      t.ph == .idle && t.flen == 0 && t.fidx == 0 && t.resKind == .none && t.errset == 0 && t.resSent == 0 &&
      t.resTxerr == 0 && !t.resValid && t.tx == [0x89, 0x00] && t.transport == opened := by
  decide

/-- T11: accepting a command clears the old result. -/
theorem test_accept_clears_the_result :
    reaches (take (.edge (.present (.ofOp 0x83))) { ready with resKind := .validation, errset := 1, resValid := true })
      fun t => t.ph == .emit && t.resKind == .none && t.errset == 0 && !t.resValid := by
  decide +kernel

/-- T12: a second descriptor in EMIT is not sampled. -/
theorem test_no_accept_in_emit :
    reaches (take (.edge (.present (.ofOp 0x83))) (atByte 0)) fun t =>
      t.ph == .emit && t.fb == (atByte 0).fb && t.fidx == 0 && t.tx == [] := by
  decide +kernel

/-- T14: without an answer the byte stays offered. -/
theorem test_silent_transport :
    reaches (take (.edge .quiet) (atByte 4)) fun t => t.ph == .emit && t.txData == some 0xFF && t.txLast && !t.cmdReady := by
  decide

/-- L2: closing fails, opening succeeds. -/
theorem test_connect_reports_the_close_failure :
    reaches (take (.call (.connect (some 1) none)) ready) fun t =>
      t.transport.chan == some 1 && t.transport.lastReturn == .errors { closing := some 1, opening := none } := by
  decide

/-- L4: both fail, and the old handle is not kept. -/
theorem test_connect_reports_both_failures :
    reaches (take (.call (.connect (some 1) (some 2))) ready) fun t =>
      t.transport.chan == none && t.transport.lastReturn == .errors { closing := some 1, opening := some 2 } := by
  decide

/-- L5: no channel, so no closing. -/
theorem test_first_connect :
    reaches (take (.call (.connect (some 1) none)) State.reset) fun t =>
      t.transport.chan == some 0 && t.transport.lastReturn == .errors { closing := none, opening := none } := by
  decide

/-- L8: the handle is cleared although closing failed. -/
theorem test_finalize_clears :
    reaches (take (.call (.finalize (some 1))) ready) fun t =>
      t.transport.chan == none && t.transport.lastReturn == .errors { closing := some 1, opening := none } := by
  decide

/-- L9: a no-op that reports no error. -/
theorem test_finalize_without_channel :
    reaches (take (.call (.finalize (some 1))) State.reset) fun t =>
      t.transport.chan == none && t.transport.lastReturn == .errors { closing := none, opening := none } := by
  decide

/-- R48: a lifecycle call in EMIT marks the frame in flight, and the strobe is down after a call. -/
theorem test_call_in_frame :
    reaches (take (.call (.finalize none)) (atByte 2)) (fun t => t.transport.callInFrame && !t.resValid) ∧
    reaches (take (.call (.finalize none)) { ready with resKind := .illegal, resValid := true })
      (fun t => !t.transport.callInFrame && !t.resValid && t.resKind == .illegal) := by
  decide

/-! ### The written form (R66, R67, the commands of 95_test_vectors.md part 4) -/

theorem test_asm :
    asm (.drive 100 (-1)) = "Drive(100, -1)".toList ∧ asm .start = "Start()".toList ∧
    asm (.motors 0b10101) = "Motors(true, false, true, false, true)".toList ∧
    asm (.stream [7, 19, 20]) = "Stream([7, 19, 20])".toList ∧
    asm (.song 0 3 [⟨60, 32⟩, ⟨64, 32⟩, ⟨67, 64⟩]) = "Song(0, [(60,32), (64,32), (67,64)])".toList ∧
    asm (.schedule 0b00111110 ([⟨0, 0⟩] ++ List.replicate 5 ⟨8, 30⟩ ++ [⟨0, 0⟩])) =
      "Schedule([-, 08:30, 08:30, 08:30, 08:30, 08:30, -])".toList ∧
    asmPseudo .disableSchedule = "DisableSchedule()".toList := by
  decide +kernel

/-! ### The reader (R56) -/

/-- P1's first frames, cut from the stream. -/
theorem test_cut :
    cutFrame false [0x80, 0x83] = some ([0x80], [0x83]) ∧
    cutFrame false [0x89, 0x00, 0xC8, 0x7F, 0xFF, 0x89] = some ([0x89, 0x00, 0xC8, 0x7F, 0xFF], [0x89]) ∧
    cutFrame false [0x8C, 0x00, 0x01, 0x3C, 0x20, 0x8D] = some ([0x8C, 0x00, 0x01, 0x3C, 0x20], [0x8D]) ∧
    cutFrame true [0x88, 0x01, 0x88] = some ([0x88, 0x01], [0x88]) ∧ cutFrame false [0x89, 0x00] = none := by
  decide

/-! ### Witnesses of the obligations

For a statement about a command in an idle block the state is `ready` or the state after reset, for one about EMIT a
state of `atByte`; operands stand at the two sides of each boundary. -/

theorem ready_inv : ready.Inv := by
  refine ⟨by decide, by decide, by decide, by decide, by decide, by decide, by decide, by decide, by decide, by decide,
    by decide, ?_⟩
  intro h hh; cases hh; exact Nat.zero_lt_one

/-- The invariant holds of `Drive(100, -1)` in flight, at its first and its last byte. -/
theorem atByte_inv (k : Nat) (hk : k < 5) : (atByte k).Inv := by
  have hf : (atByte k).fidx.toNat = k := by
    simp only [atByte, BitVec.toNat_ofNat]; omega
  exact {
    params := ready_inv.params
    frame := by show 5 ≤ 257; omega
    index := by omega
    offered := fun _ => by rw [hf]; exact hk
    inFlight := fun _ => ⟨rfl, rfl⟩
    violations := ready_inv.violations
    violationBits := ready_inv.violationBits
    sent := ⟨nofun, nofun, fun _ _ => rfl⟩
    txerr := fun _ => rfl
    refused := by rintro (h | h) <;> cases h
    strobe := nofun
    handle := ready_inv.handle }

/-- A state with events to come keeps the invariant: the events are no part of it. -/
theorem inv_env {s : State} (h : s.Inv) (e : List Event) : ({ s with env := e } : State).Inv :=
  ⟨h.params, h.frame, h.index, h.offered, h.inFlight, h.violations, h.violationBits, h.sent, h.txerr, h.refused, h.strobe,
    h.handle⟩

theorem witness_DecodeOfEncodeIsIdentity :
    Instr.wf (.song 3 255 (List.replicate 16 ⟨127, 0⟩)) = true ∧ Instr.wf (.stream (List.replicate 255 7)) = true ∧
    Instr.wf (.digitLEDsASCII []) = true ∧ Instr.wf (.schedule 0xFF (List.replicate 7 ⟨23, 59⟩)) = true := by
  decide +kernel

theorem witness_DecodedCommandsAreWellFormed :
    decode { Descriptor.ofOp 0x8C with len := 17 } = .ok (.song 0 17 (List.replicate 16 ⟨0, 0⟩)) := rfl

theorem witness_DecoderFollowsTheOpcodeMap :
    (∃ r ∈ opcodeMap, (Descriptor.ofOp 0x88).sel &&& r.mask = r.pattern ∧ r.mnemonic = "Max") ∧
    (∃ r ∈ opcodeMap, ({ Descriptor.ofOp 0xA8 with var := true } : Descriptor).sel &&& r.mask = r.pattern) ∧
    (∀ r ∈ opcodeMap, (Descriptor.ofOp 0xA9).sel &&& r.mask ≠ r.pattern) := by
  decide +kernel

/-- Idle, with an illegal selector on the port; the opcodes at the edges of the illegal ranges are legal or not as R62
says. -/
theorem witness_IllegalSelectorsAreReportedAndWriteNothing :
    ready.ph = .idle ∧ (PortSample.present (.ofOp 0xA9)).rst = false ∧
    (PortSample.present (.ofOp 0xA9)).cmd = some (.ofOp 0xA9) ∧
    decode (.ofOp 0xA9) = .error (.illegalSelector 0x0A9) ∧ decode (.ofOp 0x7F) = .error (.illegalSelector 0x07F) ∧
    decode (.ofOp 0x98) = .error (.illegalSelector 0x098) ∧ decode (.ofOp 0xA1) = .error (.illegalSelector 0x0A1) ∧
    decode (.ofOp 0x80) = .ok .start ∧ decode (.ofOp 0x97) = .ok (.sendIR 0) ∧
    decode (.ofOp 0xA2) = .ok (.schedulingLEDs 0 0) :=
  ⟨rfl, rfl, rfl, rfl, rfl, rfl, rfl, rfl, rfl, rfl⟩

theorem witness_VarIsIgnoredExceptUnder136 : (Descriptor.ofOp 0x80).op ≠ 136 ∧ (Descriptor.ofOp 0x82).op ≠ 136 := by decide

/-- Two descriptors of a Schedule that differ in `FLAGS[7]`, in an inactive day and in a field Schedule does not read. -/
theorem witness_IgnoredFieldsChangeNothing :
    let d : Descriptor := { Descriptor.ofOp 0xA7 with flags := 0x02, list := padList [0, 0, 7, 15] }
    let d' : Descriptor := { Descriptor.ofOp 0xA7 with flags := 0x82, list := padList [9, 9, 7, 15], b0 := 1 }
    d.sel = d'.sel ∧ d.readFields ready.params = d'.readFields ready.params ∧ d ≠ d' := by
  decide +kernel

theorem witness_PackKeepsTheFirstFlagsAndClearsTheRest :
    (1 ≤ 1 ∧ 1 ≤ 8 ∧ pack 1 0xFF = 0x01) ∧ (1 ≤ 8 ∧ 8 ≤ 8 ∧ pack 8 0xFF = 0xFF) := by decide

theorem witness_Pad4CutsOrPadsToFour :
    (3 < 4 ∧ 3 < [0x41, 0x42, 0x43, 0x44, (0x45 : Byte)].length) ∧ (1 < 4 ∧ [(0x41 : Byte)].length ≤ 1) := by decide

theorem witness_ZeroPayloadCommandsEmitTheirOpcode :
    ready.ph = .idle ∧ (Descriptor.ofOp 136).op = 136 ∧ (Descriptor.ofOp 136).var = false := by decide

theorem witness_UncheckedByteCommandsCopyTheirBytes :
    ready.ph = .idle ∧ ({ Descriptor.ofOp 136 with var := true } : Descriptor).op = 136 ∧
    ({ Descriptor.ofOp 136 with var := true } : Descriptor).var = true := by
  decide

theorem witness_PauseResumeStreamSendsZeroOrOne : ready.ph = .idle := rfl

theorem witness_MotorsSendsItsFiveFlags : ready.ph = .idle := rfl

theorem witness_DigitLedsAsciiSendsFourCharacters : ready.ph = .idle := rfl

theorem witness_PseudoCommandsEmitTheirRealFrames : ready.ph = .idle := rfl

theorem witness_BaudChecksItsCode : ready.ph = .idle ∧ (11 : Byte).toNat ≤ 11 ∧ 11 < (12 : Byte).toNat := by decide

theorem witness_PlayChecksItsSlot : ready.ph = .idle ∧ (3 : Byte).toNat ≤ 3 ∧ 3 < (4 : Byte).toNat := by decide

/-- The vacuum byte at 127 and 128, and a build that refuses the brush byte 0x80. -/
theorem witness_PwmMotorsChecksItsDuties :
    let s : State := { ready with params := { Params.default with brushRefused := [0x80] } }
    s.ph = .idle ∧
    ((0x7F : Byte) ∉ s.params.brushRefused ∧ (0x81 : Byte) ∉ s.params.brushRefused ∧ (127 : Byte).toNat ≤ 127) ∧
    ¬ ((0x7F : Byte) ∉ s.params.brushRefused ∧ (0x80 : Byte) ∉ s.params.brushRefused ∧ (128 : Byte).toNat ≤ 127) := by
  decide

/-- Velocity at ±500 and ±501, radius at ±2000, ±2001 and around the two special values. -/
theorem witness_DriveChecksVelocityAndRadius :
    let velocityIn := fun v : Word => -500 ≤ v.toInt ∧ v.toInt ≤ 500
    let radiusIn := fun r : Word => (-2000 ≤ r.toInt ∧ r.toInt ≤ 2000) ∨ r.toInt = -32768 ∨ r.toInt = 32767
    ready.ph = .idle ∧
    ([(500, -2000), (-500, 2000), (500, 0x7FFF), (500, 0x8000)].all
      fun (v, r) => decide (velocityIn v ∧ radiusIn r)) ∧
    ([(501, 2000), (-501, 0x8000)].all fun (v, r) => decide (¬ velocityIn v ∧ radiusIn r)) ∧
    ([(500, 2001), (-500, -2001), (0, 0x7FFE), (0, 0x8001)].all
      fun (v, r) => decide (velocityIn v ∧ ¬ radiusIn r)) ∧
    ([(501, 2001)].all fun (v, r) => decide (¬ velocityIn v ∧ ¬ radiusIn r)) := by
  decide

theorem witness_DriveDirectChecksBothWheels :
    let wheelIn := fun v : Word => -500 ≤ v.toInt ∧ v.toInt ≤ 500
    ready.ph = .idle ∧ (wheelIn 500 ∧ wheelIn (-500)) ∧ (¬ wheelIn 501 ∧ wheelIn (-500)) ∧
    (wheelIn 500 ∧ ¬ wheelIn (-501)) ∧ (¬ wheelIn (-501) ∧ ¬ wheelIn 501) := by
  decide

theorem witness_DrivePwmChecksBothWheels :
    let wheelIn := fun v : Word => -255 ≤ v.toInt ∧ v.toInt ≤ 255
    ready.ph = .idle ∧ (wheelIn 255 ∧ wheelIn (-255)) ∧ (¬ wheelIn 256 ∧ wheelIn (-255)) ∧
    (wheelIn 255 ∧ ¬ wheelIn (-256)) ∧ (¬ wheelIn (-256) ∧ ¬ wheelIn 256) := by
  decide

/-- Flag counts at both ends of their range. -/
theorem witness_BitfieldCommandsPackTheirFlags :
    ready.ph = .idle ∧ ready.params.wf ∧
    ({ kLeds := 1, kSchedLeds := 8, kDigout := 1, kButtons := 8, brushRefused := [] } : Params).wf := by
  decide

/-- Valid: slot 3, sixteen notes, numbers 31 and 127. Not valid: slot 4, or seventeen notes, or a number 30 or 128. -/
theorem witness_SongChecksSlotLengthAndNotes :
    let valid := fun (slot count : Byte) (notes : List Note) =>
      slot.toNat ≤ 3 ∧ count.toNat ≤ 16 ∧ ∀ n ∈ notes, 31 ≤ n.number.toNat ∧ n.number.toNat ≤ 127
    let sixteen : List Note := ⟨31, 255⟩ :: List.replicate 15 ⟨127, 0⟩
    ready.ph = .idle ∧ (sixteen.length = min (16 : Byte).toNat 16 ∧ valid 3 16 sixteen) ∧
    (sixteen.length = min (17 : Byte).toNat 16 ∧ ¬ valid 3 17 sixteen) ∧ (([] : List Note).length = min (0 : Byte).toNat 16 ∧
    ¬ valid 4 0 []) ∧ ([(⟨30, 1⟩ : Note)].length = min (1 : Byte).toNat 16 ∧ ¬ valid 3 1 [⟨30, 1⟩]) ∧
    ¬ valid 3 1 [⟨128, 1⟩] := by
  decide

theorem witness_IdentifierListsCarryAComputedCount :
    ready.ph = .idle ∧ (List.replicate 255 (0xFF : Byte)).length ≤ 255 ∧ ([] : List Byte).length ≤ 255 := by
  decide +kernel

/-- Valid: 23:59 on active days and 24:60 on an inactive one. Not valid: hour 24, or minute 60. -/
theorem witness_ScheduleSendsSevenDaysAndChecksTheActive :
    let valid := fun (flags : Byte) (times : List TimeOfDay) =>
      ∀ i t, times[i]? = some t → flags.getLsbD i = true → t.hour.toNat ≤ 23 ∧ t.minute.toNat ≤ 59
    let last := fun t : TimeOfDay => List.replicate 6 (⟨23, 59⟩ : TimeOfDay) ++ [t]
    ready.ph = .idle ∧ (last ⟨24, 60⟩).length = 7 ∧ valid 0x3F (last ⟨24, 60⟩) ∧ ¬ valid 0x7F (last ⟨24, 0⟩) ∧
    ¬ valid 0x40 (last ⟨0, 60⟩) := by
  refine ⟨rfl, rfl, fun i t h => ?_, fun h => ?_, fun h => ?_⟩
  · match i with
    | 0 | 1 | 2 | 3 | 4 | 5 | 6 => cases h; decide
    | _ + 7 => cases h
  · exact absurd (h 6 _ rfl (by decide)).1 (by decide)
  · exact absurd (h 6 _ rfl (by decide)).2 (by decide)

theorem witness_SetDateTimeChecksItsFields :
    let valid := fun weekday hour minute : Byte => weekday.toNat ≤ 6 ∧ hour.toNat ≤ 23 ∧ minute.toNat ≤ 59
    ready.ph = .idle ∧ valid 6 23 59 ∧ ¬ valid 7 23 59 ∧ ¬ valid 6 24 59 ∧ ¬ valid 6 23 60 := by
  decide

theorem witness_CommandsWithoutRangeTableNeverViolate :
    ready.ph = .idle ∧ checked (.stream [0xFF]) = false ∧ checked .start = false := by decide

theorem witness_ViolationBitsStayBelow18 :
    Instr.wf (.song 4 17 (List.replicate 16 ⟨30, 0⟩)) = true ∧ 18 ≤ 18 ∧
    (ruleOf Params.default (.song 4 17 (List.replicate 16 ⟨30, 0⟩))).violations = 0x0003FFFF := by
  decide +kernel

/-- The longest frame, the shortest, and an empty song; also for CountByteEqualsTheEntriesThatFollow and
ReaderCutsWholeFrames. -/
theorem witness_FrameLengthIsThatOfTheFormat :
    Instr.wf (.stream (List.replicate 255 7)) = true ∧
    (ruleOf Params.default (.stream (List.replicate 255 7))).violations = 0 ∧
    (ruleOf Params.default (.stream (List.replicate 255 7))).frame.length = 257 ∧
    Instr.wf .start = true ∧ (ruleOf Params.default .start).violations = 0 ∧ Instr.wf (.song 3 0 []) = true ∧
    (ruleOf Params.default (.song 3 0 [])).violations = 0 := by
  decide +kernel

theorem witness_CountByteEqualsTheEntriesThatFollow :
    (List.replicate 255 (7 : Byte)).length ≤ 255 ∧ (List.replicate 16 (⟨60, 8⟩ : Note)).length = min (16 : Byte).toNat 16 ∧
    (ruleSong 3 16 (List.replicate 16 ⟨60, 8⟩)).violations = 0 := by
  decide +kernel

theorem witness_ReaderCutsWholeFrames :
    Instr.wf (.song 3 16 (List.replicate 16 ⟨60, 8⟩)) = true ∧
    (ruleOf Params.default (.song 3 16 (List.replicate 16 ⟨60, 8⟩))).violations = 0 := by
  decide +kernel

/-- Two idle states that hold different results and different old frames. -/
theorem witness_EarlierCommandsDoNotInfluenceLaterOnes :
    let s' : State := { ready with fb := [0x80], fidx := 1, resKind := .ok, resSent := 1 }
    ready.ph = .idle ∧ s'.ph = .idle ∧ ready.params = s'.params := by
  decide

theorem witness_StepRunsTheDecodedCommand :
    let s : State := { ready with env := [.edge (.present (.ofOp 0x80))] }
    s.ph = .idle ∧ s.env = .edge (.present (.ofOp 0x80)) :: [] ∧ (PortSample.present (.ofOp 0x80)).rst = false ∧
    (PortSample.present (.ofOp 0x80)).cmd = some (.ofOp 0x80) ∧ decode (.ofOp 0x80) = .ok .start :=
  ⟨rfl, rfl, rfl, rfl, rfl⟩

theorem witness_CommandPortIsNotSampledInEmit : (atByte 0).ph = .emit := rfl

/-- Idle without a command, EMIT without an answer, and no input left after reset and in EMIT. -/
theorem witness_WithNoStepEnabledNothingChanges :
    State.reset.env = [] ∧ ((atByte 4).env = [] ∧ (atByte 4).ph = .emit) ∧
    (ready.ph = .idle ∧ PortSample.quiet.cmd = none) ∧
    ((atByte 4).ph = .emit ∧ PortSample.quiet.tx.ready = false ∧ PortSample.quiet.tx.error = false) ∧
    PortSample.quiet.rst = false := by
  decide

/-- At the first byte and at the last. -/
theorem witness_BeatHandsOverTheOfferedByte :
    ((atByte 0).Inv ∧ (atByte 0).fidx.toNat + 1 < (atByte 0).fb.length) ∧
    ((atByte 4).Inv ∧ (atByte 4).fidx.toNat + 1 = (atByte 4).fb.length) ∧
    (atByte 4).ph = .emit ∧ (atByte 4).transport.linked = true ∧ PortSample.ack.rst = false ∧
    PortSample.ack.tx.ready = true ∧ PortSample.ack.tx.error = false :=
  ⟨⟨atByte_inv 0 (by decide), by decide⟩, ⟨atByte_inv 4 (by decide), by decide⟩, by decide⟩

/-- With `tx_ready` at either value. -/
theorem witness_TransportErrorAbandonsTheFrame :
    (atByte 3).ph = .emit ∧ (atByte 3).transport.linked = true ∧ (PortSample.fail 2).rst = false ∧
    (PortSample.fail 2).tx.error = true ∧ (PortSample.both 2).tx.error = true ∧ (PortSample.both 2).tx.ready = true := by
  decide

theorem witness_ClosedChannelFailsTheOfferedByte :
    let s : State := { State.reset with ph := .emit, fb := [0x80] }
    s.ph = .emit ∧ s.transport.linked = false ∧ PortSample.ack.rst = false ∧ PortSample.ack.tx.ready = true ∧
    (PortSample.fail 1).tx.error = true := by
  decide

theorem witness_ResetStepGivesTheResetValues : PortSample.reset.rst = true := rfl

/-- Idle and EMIT; also for EveryStepKeepsTheInvariant. -/
theorem witness_OutputsFollowThePhase :
    (ready.Inv ∧ ready.ph = .idle) ∧ ((atByte 4).Inv ∧ (atByte 4).ph = .emit) :=
  ⟨⟨ready_inv, rfl⟩, atByte_inv 4 (by decide), rfl⟩

/-- With an open channel: opening succeeds, and opening fails, in IDLE and in EMIT. -/
theorem witness_ConnectDropsTheOldChannelAndReportsBothFailures :
    (∃ s : State, s.Inv ∧ s.env = .call (.connect (some 1) none) :: [] ∧ s.transport.chan = some 0 ∧ s.ph = .idle) ∧
    (∃ s : State, s.Inv ∧ s.env = .call (.connect (some 1) (some 2)) :: [] ∧ s.ph = .emit) :=
  ⟨⟨_, inv_env ready_inv _, rfl, rfl, rfl⟩, ⟨_, inv_env (atByte_inv 2 (by decide)) _, rfl, rfl⟩⟩

/-- With an open channel, in EMIT, and without one. -/
theorem witness_FinalizeClearsTheChannel :
    (∃ s : State, s.env = .call (.finalize (some 1)) :: [] ∧ s.transport.chan ≠ none ∧ s.ph = .emit) ∧
    (∃ s : State, s.env = .call (.finalize (some 1)) :: [] ∧ s.transport.chan = none) :=
  ⟨⟨{ atByte 2 with env := [.call (.finalize (some 1))] }, rfl, by decide, rfl⟩,
    ⟨{ State.reset with env := [.call (.finalize (some 1))] }, rfl, rfl⟩⟩

theorem witness_ProbesOfTheTransportChangeNothing :
    (∃ s : State, s.env = .call (.readOneByte 7 none) :: []) ∧ (∃ s : State, s.env = .call .identity :: []) :=
  ⟨⟨{ ready with env := [.call (.readOneByte 7 none)] }, rfl⟩, ⟨{ ready with env := [.call .identity] }, rfl⟩⟩

/-- A step that appends a byte, and one that does not; also for NoStepChangesTheParameters. -/
theorem witness_TxGrowsOnlyByTheOfferedByte :
    reaches (take (.edge .ack) (atByte 0)) (fun t => t.tx == [0x89]) ∧
    reaches (take (.edge .quiet) (atByte 0)) (fun t => t.tx == []) := by
  decide

/-- The last acknowledgement strobes; a reset inside the frame ends the command without a result. -/
theorem witness_StrobeMarksTheEndOfTheCommandInFlight :
    (atByte 4).Inv ∧ (atByte 4).ph = .emit ∧
    reaches (take (.edge .ack) (atByte 4)) (fun t => t.resValid && t.ph == .idle && t.resKind == .ok) ∧
    reaches (take (.edge .reset) (atByte 4)) (fun t => !t.resValid && t.ph == .idle && t.resKind == .none) :=
  ⟨atByte_inv 4 (by decide), rfl, by decide, by decide⟩

/-- `Start()`, one delayed sample, then the acknowledgement. -/
theorem witness_AcknowledgedCommandPutsItsFrameOnTx :
    ∃ s : State, s.Inv ∧ s.ph = .idle ∧ s.transport.chan.isSome = true ∧ decode (.ofOp 0x80) = .ok .start ∧
      (ruleOf s.params .start).violations = 0 ∧ [PortSample.quiet].all PortSample.calm = true ∧
      PortSample.ack.calm = true ∧ PortSample.ack.tx.ready = true ∧
      acks [PortSample.quiet] + 1 = (ruleOf s.params .start).frame.length ∧
      s.env = .edge (.present (.ofOp 0x80)) :: ([PortSample.quiet] ++ [PortSample.ack]).map .edge ++ [] :=
  ⟨_, inv_env ready_inv _, rfl, rfl, rfl, rfl, rfl, rfl, rfl, rfl, rfl⟩

/-- `Demo(0)`, one byte acknowledged, the last one failed. -/
theorem witness_FailedFrameLeavesExactlyTheAcknowledgedPrefix :
    ∃ (s : State) (d : Descriptor), s.Inv ∧ s.ph = .idle ∧ s.transport.chan.isSome = true ∧ decode d = .ok (.demo 0) ∧
      (ruleOf s.params (.demo 0)).violations = 0 ∧ [PortSample.ack].all PortSample.calm = true ∧
      (PortSample.fail 2).rst = false ∧ (PortSample.fail 2).tx.error = true ∧
      acks [PortSample.ack] < (ruleOf s.params (.demo 0)).frame.length ∧
      s.env = .edge (.present d) :: ([PortSample.ack] ++ [PortSample.fail 2]).map .edge ++ [] :=
  ⟨_, { Descriptor.ofOp 0x88 with var := true }, inv_env ready_inv _, rfl, rfl, rfl, rfl, rfl, rfl, rfl, by decide, rfl⟩

/-- A valid command, a violating one and an illegal selector, one after the other. -/
theorem witness_FramesStandOnTxInOrderOfAcceptance :
    ∃ (s : State) (ds : List Descriptor), s.Inv ∧ s.ph = .idle ∧ s.transport.chan.isSome = true ∧
      s.env = presented s.params ds ++ [] ∧ ds.map (deliveredFrame s.params) = [[0x80], [], []] :=
  ⟨{ ready with env := presented Params.default [.ofOp 0x80, { Descriptor.ofOp 0x81 with b0 := 12 }, .ofOp 0x82] ++ [] },
    [.ofOp 0x80, { Descriptor.ofOp 0x81 with b0 := 12 }, .ofOp 0x82], inv_env ready_inv _, rfl, rfl, rfl,
    by decide +kernel⟩

end Sys2Proof.Tests
end

/-! ## Decoded commands and their rules

What every decoded command satisfies, and what its rule can give: a frame of 1 to 257 bytes and violations below bit 18. -/

namespace Sys2Proof

/-! ### Sizes of what a descriptor carries -/

@[simp] theorem Descriptor.items_length (d : Descriptor) (n : Nat) : (d.items n).length = n := by
  simp [Descriptor.items]

@[simp] theorem Descriptor.notes_length (d : Descriptor) : d.notes.length = min d.len.toNat 16 := by
  simp [Descriptor.notes]

@[simp] theorem Descriptor.times_length (d : Descriptor) : d.times.length = 7 := rfl

/-- `LEN` is a byte, so a list operand has at most 255 entries (R11). -/
theorem Descriptor.len_le (d : Descriptor) : d.len.toNat ≤ 255 := by omega

/-- Every row of the map reads well-formed operands off any descriptor. -/
theorem operands_wf (d : Descriptor) : ∀ r ∈ opcodeMap, (r.operands d).wf = true := by
  simp [opcodeMap, opcodeMapLow, opcodeMapMiddle, opcodeMapHigh, Instr.wf, d.len_le]

theorem decode_wf {d : Descriptor} {i : Instr} (h : decode d = .ok i) : i.wf = true := by
  obtain ⟨r, hr, -, rfl⟩ := decode_ok h
  exact operands_wf d r hr

/-- Settles O3: a decoded command is the operands of a row of the map, and each row's operands are well formed. -/
theorem decodedCommandsAreWellFormed : Obligations.DecodedCommandsAreWellFormed := fun _ _ h => decode_wf h

end Sys2Proof

namespace Sys2Proof.Machine

/-! ### The violation set of a rule -/

theorem violateIf_toNat_lt {i : Nat} (h : i < 18) (failed : Bool) : (violateIf i failed).toNat < 2 ^ 18 := by
  cases failed with
  | false => exact Nat.two_pow_pos 18
  | true =>
    rw [violateIf, if_pos rfl, BitVec.toNat_twoPow]
    exact lt_of_le_of_lt (Nat.mod_le _ _) (Nat.pow_lt_pow_right (by decide) h)

theorem or_toNat_lt {v w : ErrSet} (hv : v.toNat < 2 ^ 18) (hw : w.toNat < 2 ^ 18) : (v ||| w).toNat < 2 ^ 18 := by
  rw [BitVec.toNat_or]
  exact Nat.or_lt_two_pow hv hw

theorem noteViolations_toNat_lt {i : Nat} {ns : List Note} (h : i + ns.length ≤ 18) :
    (noteViolations i ns).toNat < 2 ^ 18 := by
  induction ns generalizing i with
  | nil => exact Nat.two_pow_pos 18
  | cons n ns ih =>
    rw [List.length_cons] at h
    exact or_toNat_lt (violateIf_toNat_lt (by omega) _) (ih (by omega))

theorem dayViolations_toNat_lt {flags : Byte} {i : Nat} {ts : List TimeOfDay} (h : i + ts.length ≤ 9) :
    (dayViolations flags i ts).toNat < 2 ^ 18 := by
  induction ts generalizing i with
  | nil => exact Nat.two_pow_pos 18
  | cons t ts ih =>
    rw [List.length_cons] at h
    exact or_toNat_lt (or_toNat_lt (violateIf_toNat_lt (by omega) _) (violateIf_toNat_lt (by omega) _)) (ih (by omega))

/-- R144: the violations of a well-formed command lie in bits 0 to 17. -/
theorem ruleOf_violations_lt (p : Params) {i : Instr} (h : i.wf = true) : (ruleOf p i).violations.toNat < 2 ^ 18 := by
  cases i with
  | baud _ | play _ => exact violateIf_toNat_lt (by decide) _
  | drive _ _ | driveDirect _ _ | drivePWM _ _ =>
    exact or_toNat_lt (violateIf_toNat_lt (by decide) _) (violateIf_toNat_lt (by decide) _)
  | pwmMotors _ _ _ | setDateTime _ _ _ =>
    exact or_toNat_lt (or_toNat_lt (violateIf_toNat_lt (by decide) _) (violateIf_toNat_lt (by decide) _))
      (violateIf_toNat_lt (by decide) _)
  | song _ _ notes =>
    have hnotes : 0 + (notes.take Limits.songMaxNotes).length ≤ 18 := by simp
    exact or_toNat_lt (or_toNat_lt (noteViolations_toNat_lt hnotes) (violateIf_toNat_lt (by decide) _))
      (violateIf_toNat_lt (by decide) _)
  | schedule flags times =>
    have htimes : times.length = 7 := by simpa [Instr.wf] using h
    exact dayViolations_toNat_lt (by omega)
  | _ => exact Nat.two_pow_pos 18

/-! ### The frame of a rule -/

/-- Every frame begins with its opcode (R51). -/
theorem ruleOf_frame_length_pos (p : Params) (i : Instr) : 0 < (ruleOf p i).frame.length := by
  cases i <;> exact Nat.succ_pos _

/-- `FB_MAX` (R5): no well-formed command has a longer frame. -/
theorem ruleOf_frame_length_le (p : Params) {i : Instr} (h : i.wf = true) : (ruleOf p i).frame.length ≤ 257 := by
  cases i with
  | song slot count notes =>
    have hnotes : notes.length = min count.toNat 16 := by simpa [Instr.wf] using h
    simp [ruleOf, ruleSong]
    omega
  | stream ids | queryList ids =>
    have hids : ids.length ≤ 255 := by simpa [Instr.wf] using h
    simp [ruleOf, ruleStream, ruleQueryList]
    omega
  | schedule flags times =>
    have htimes : times.length = 7 := by simpa [Instr.wf] using h
    simp [ruleOf, ruleSchedule, schedulePayload, htimes]
  | digitLEDsASCII message => simp [ruleOf, ruleDigitLEDsASCII]
  | _ => exact Nat.le_of_ble_eq_true rfl

end Sys2Proof.Machine

/-! ## The step as equations

One equation per case of the clock edge and of the port of TX, with the condition under which R17 enables it. -/

namespace Sys2Proof.Machine

theorem Phase.idle_or_emit (ph : Phase) : ph = .idle ∨ ph = .emit := by
  cases ph with
  | idle => exact .inl rfl
  | emit => exact .inr rfl

/-! ### The clock edge -/

theorem clockEdge_reset {p : PortSample} (hrst : p.rst = true) (s : State) : clockEdge p s = .next s.resetStep := by
  simp [clockEdge, hrst]

theorem clockEdge_idle_none {p : PortSample} {s : State} (hrst : p.rst = false) (hph : s.ph = .idle) (hcmd : p.cmd = none) :
    clockEdge p s = .next s.wait := by
  simp [clockEdge, hrst, hph, hcmd]

theorem clockEdge_idle_some {p : PortSample} {s : State} {d : Descriptor} (hrst : p.rst = false) (hph : s.ph = .idle)
    (hcmd : p.cmd = some d) : clockEdge p s = acceptDescriptor d s := by
  simp [clockEdge, hrst, hph, hcmd]

theorem clockEdge_emit {p : PortSample} {s : State} (hrst : p.rst = false) (hph : s.ph = .emit) :
    clockEdge p s = txStep (s.transport.answer p.tx) s := by
  simp [clockEdge, hrst, hph]

/-- In EMIT the edge does not read the command port (R13). -/
theorem clockEdge_emit_cmd {s : State} (hph : s.ph = .emit) (p : PortSample) (c : Option Descriptor) :
    clockEdge { p with cmd := c } s = clockEdge p s := by
  simp [clockEdge, hph]

theorem acceptDescriptor_ok {d : Descriptor} {i : Instr} (h : decode d = .ok i) (s : State) :
    acceptDescriptor d s = exec i s := by
  simp [acceptDescriptor, h]

theorem acceptDescriptor_error {d : Descriptor} {e : DecodeReject} (h : decode d = .error e) (s : State) :
    acceptDescriptor d s = .next s.refuseIllegal := by
  simp [acceptDescriptor, h]

/-! ### The port of TX -/

theorem txStep_error {w : TxWires} (herr : w.error = true) (s : State) : txStep w s = .next (s.failTransport w.ecode) := by
  simp [txStep, herr]

theorem txStep_ready {w : TxWires} (herr : w.error = false) (hready : w.ready = true) (s : State) : txStep w s = beat s := by
  simp [txStep, herr, hready]

theorem txStep_silent {w : TxWires} (herr : w.error = false) (hready : w.ready = false) (s : State) :
    txStep w s = .next s.wait := by
  simp [txStep, herr, hready]

theorem beat_last {s : State} (h : s.fidx.toNat < s.fb.length) (hlast : s.fidx.toNat + 1 = s.fb.length) :
    beat s = .next (s.beatLast s.fb[s.fidx.toNat]) := by
  rw [beat_of_offered h, if_pos hlast]

theorem beat_more {s : State} (h : s.fidx.toNat + 1 < s.fb.length) :
    beat s = .next (s.beatMore (s.fb[s.fidx.toNat]'(Nat.lt_of_succ_lt h))) := by
  rw [beat_of_offered (Nat.lt_of_succ_lt h), if_neg (Nat.ne_of_lt h)]

theorem answer_of_linked {t : Transport} (h : t.linked = true) (w : TxWires) : t.answer w = w := if_pos h

/-- A link that does not answer stays silent, with a channel or without one. -/
theorem answer_of_silent {w : TxWires} (herr : w.error = false) (hready : w.ready = false) (t : Transport) :
    t.answer w = w := by
  obtain ⟨ready, error, ecode⟩ := w
  subst herr hready
  exact ite_self _

/-! ### One edge, from the sample to the update -/

theorem clockEdge_legal {p : PortSample} {s : State} {d : Descriptor} {i : Instr} (hrst : p.rst = false) (hph : s.ph = .idle)
    (hcmd : p.cmd = some d) (hdec : decode d = .ok i) : clockEdge p s = exec i s := by
  rw [clockEdge_idle_some hrst hph hcmd, acceptDescriptor_ok hdec]

/-- Without an answer the offered byte waits (R47). -/
theorem clockEdge_silent {p : PortSample} {s : State} (hrst : p.rst = false) (hph : s.ph = .emit)
    (hready : p.tx.ready = false) (herr : p.tx.error = false) : clockEdge p s = .next s.wait := by
  rw [clockEdge_emit hrst hph, answer_of_silent herr hready, txStep_silent herr hready]

theorem clockEdge_ready {p : PortSample} {s : State} (hrst : p.rst = false) (hph : s.ph = .emit)
    (hlink : s.transport.linked = true) (hready : p.tx.ready = true) (herr : p.tx.error = false) :
    clockEdge p s = beat s := by
  rw [clockEdge_emit hrst hph, answer_of_linked hlink, txStep_ready herr hready]

/-- An edge at which all inputs are low enables no step (log 1). -/
theorem clockEdge_quiet (s : State) : clockEdge .quiet s = .next s.wait := by
  rcases s.ph.idle_or_emit with hph | hph
  · exact clockEdge_idle_none rfl hph rfl
  · exact clockEdge_silent rfl hph rfl rfl

/-! ### The statements about one step -/

/-- Settles O35: the edge of an idle block is the accept step, and the accept step of a legal selector is `exec`. -/
theorem stepRunsTheDecodedCommand : Obligations.StepRunsTheDecodedCommand :=
  fun _ _ _ _ _ hph henv hrst hcmd hdec => (step_edge henv).trans (clockEdge_legal hrst hph hcmd hdec)

/-- Settles O36: both steps are the edge in EMIT, which does not read the command port. -/
theorem commandPortIsNotSampledInEmit : Obligations.CommandPortIsNotSampledInEmit :=
  fun s p rest c hph => (clockEdge_emit_cmd (s := { s with env := rest }) hph p c).symm

/-- Settles O37: in each case the step is `State.wait`. -/
theorem withNoStepEnabledNothingChanges : Obligations.WithNoStepEnabledNothingChanges := by
  constructor
  · intro s p rest henv hrst hidle hemit
    refine ⟨_, (step_edge henv).trans ?_, wait_waitedAs s rest⟩
    rcases s.ph.idle_or_emit with hph | hph
    · exact clockEdge_idle_none hrst hph (hidle hph)
    · obtain ⟨hready, herr⟩ := hemit hph
      exact clockEdge_silent hrst hph hready herr
  · intro s henv
    exact ⟨_, (step_quiet henv).trans (clockEdge_quiet s), { wait_waitedAs s s.env with env := henv }⟩

/-- Settles O41: `rst` is looked at first, and the outputs of a block that is idle without a frame are those of R21. -/
theorem resetStepGivesTheResetValues : Obligations.ResetStepGivesTheResetValues := by
  intro s p rest henv hrst
  refine ⟨_, (step_edge henv).trans (clockEdge_reset hrst _), ?_⟩
  simp [State.flen, State.cmdReady, State.txValid, State.txLast]

/-- Settles O34: two states with the same parameters give the command the same rule, and the rule alone decides what the
accept step writes. -/
theorem earlierCommandsDoNotInfluenceLaterOnes : Obligations.EarlierCommandsDoNotInfluenceLaterOnes := by
  intro i s s' hph hph' hparams
  by_cases hv : (ruleOf s.params i).violations = 0
  · have hv' : (ruleOf s'.params i).violations = 0 := hparams ▸ hv
    exact ⟨_, _, exec_ok hv, exec_ok hv', by simp [hparams]⟩
  · have hv' : (ruleOf s'.params i).violations ≠ 0 := hparams ▸ hv
    exact ⟨_, _, exec_violating hv, exec_violating hv', by simp [hparams, hph, hph']⟩

end Sys2Proof.Machine

/-! ## The invariant

Each update of the state keeps `State.Inv` where R17 enables it; with the equations above, so does every step. -/

namespace Sys2Proof.Machine

namespace State.Inv

variable {s : State}

/-! ### What the invariant says of a frame in flight -/

theorem resKind_of_emit (h : s.Inv) (hph : s.ph = .emit) : s.resKind = .none := (h.inFlight hph).1

theorem errset_of_emit (h : s.Inv) (hph : s.ph = .emit) : s.errset = 0 := by
  by_contra hne
  have hkind := h.violations.mp hne
  rw [h.resKind_of_emit hph] at hkind
  cases hkind

theorem resSent_of_emit (h : s.Inv) (hph : s.ph = .emit) : s.resSent = 0 := by
  obtain ⟨-, -, hsent⟩ := h.sent
  exact hsent (by simp [h.resKind_of_emit hph]) (by simp [h.resKind_of_emit hph])

theorem resTxerr_of_emit (h : s.Inv) (hph : s.ph = .emit) : s.resTxerr = 0 :=
  h.txerr (by simp [h.resKind_of_emit hph])

theorem flen_toNat (h : s.Inv) : s.flen.toNat = s.fb.length := Machine.flen_toNat h.frame

/-- Below the last byte the 9-bit index does not wrap. -/
theorem fidx_succ_toNat (h : s.Inv) (hmore : s.fidx.toNat + 1 < s.fb.length) :
    (s.fidx + 1).toNat = s.fidx.toNat + 1 := by
  have hframe := h.frame
  rw [BitVec.toNat_add]
  exact Nat.mod_eq_of_lt (by simp; omega)

/-! ### Each update keeps it -/

/-- The invariant does not speak of the inputs to come. -/
theorem setEnv (h : s.Inv) (rest : List Event) : ({ s with env := rest } : State).Inv := { h with }

theorem wait (h : s.Inv) : s.wait.Inv :=
  { h with
    inFlight := fun hph => ⟨h.resKind_of_emit hph, rfl⟩
    strobe := nofun }

theorem resetStep (h : s.Inv) : s.resetStep.Inv where
  params := h.params
  frame := Nat.zero_le _
  index := Nat.zero_le _
  offered := nofun
  inFlight := nofun
  violations := by simp
  violationBits := Nat.two_pow_pos 18
  sent := by simp
  txerr _ := rfl
  refused _ := rfl
  strobe := nofun
  handle := h.handle

theorem loadFrame (h : s.Inv) {F : List Byte} (hpos : 0 < F.length) (hle : F.length ≤ 257) : (s.loadFrame F).Inv where
  params := h.params
  frame := hle
  index := Nat.zero_le _
  offered _ := hpos
  inFlight _ := ⟨rfl, rfl⟩
  violations := by simp
  violationBits := Nat.two_pow_pos 18
  sent := by simp
  txerr _ := rfl
  refused := by simp
  strobe := nofun
  handle := h.handle

theorem refuseViolations (h : s.Inv) (hph : s.ph = .idle) {V : ErrSet} (hV : V ≠ 0) (hbits : V.toNat < 2 ^ 18) :
    (s.refuseViolations V).Inv where
  params := h.params
  frame := Nat.zero_le _
  index := h.index
  offered := by simp [hph]
  inFlight := by simp [hph]
  violations := by simpa using hV
  violationBits := hbits
  sent := by simp
  txerr _ := rfl
  refused _ := rfl
  strobe := by simp
  handle := h.handle

theorem refuseIllegal (h : s.Inv) (hph : s.ph = .idle) : s.refuseIllegal.Inv where
  params := h.params
  frame := Nat.zero_le _
  index := h.index
  offered := by simp [hph]
  inFlight := by simp [hph]
  violations := by simp
  violationBits := Nat.two_pow_pos 18
  sent := by simp
  txerr _ := rfl
  refused _ := rfl
  strobe := by simp
  handle := h.handle

theorem failTransport (h : s.Inv) (hph : s.ph = .emit) (code : Byte) : (s.failTransport code).Inv where
  params := h.params
  frame := h.frame
  index := h.index
  offered := nofun
  inFlight := nofun
  violations := by simp [h.errset_of_emit hph]
  violationBits := h.violationBits
  sent := by simp [h.offered hph]
  txerr := by simp
  refused := by simp
  strobe := by simp
  handle := h.handle

theorem beatMore (h : s.Inv) (hph : s.ph = .emit) (hmore : s.fidx.toNat + 1 < s.fb.length) (b : Byte) :
    (s.beatMore b).Inv where
  params := h.params
  frame := h.frame
  index := by have hframe := h.frame; rw [beatMore_fidx, h.fidx_succ_toNat hmore]; omega
  offered _ := by rwa [beatMore_fidx, h.fidx_succ_toNat hmore]
  inFlight _ := ⟨h.resKind_of_emit hph, rfl⟩
  violations := h.violations
  violationBits := h.violationBits
  sent := by simp [h.resKind_of_emit hph, h.resSent_of_emit hph]
  txerr := h.txerr
  refused := h.refused
  strobe := nofun
  handle := h.handle

theorem beatLast (h : s.Inv) (hph : s.ph = .emit) (b : Byte) : (s.beatLast b).Inv where
  params := h.params
  frame := h.frame
  index := h.flen_toNat ▸ h.frame
  offered := nofun
  inFlight := nofun
  violations := by simp [h.errset_of_emit hph]
  violationBits := h.violationBits
  sent := by have := h.offered hph; simp [State.flen]; omega
  txerr _ := h.resTxerr_of_emit hph
  refused := by simp
  strobe := by simp
  handle := h.handle

theorem call (h : s.Inv) (c : TransportCall) : (s.call c).Inv where
  params := h.params
  frame := h.frame
  index := h.index
  offered := h.offered
  inFlight hph := ⟨h.resKind_of_emit hph, rfl⟩
  violations := h.violations
  violationBits := h.violationBits
  sent := h.sent
  txerr := h.txerr
  refused := h.refused
  strobe := nofun
  handle := by
    cases c with
    | connect closing opening =>
      cases opening with
      | none => rintro _ ⟨⟩; exact Nat.lt_succ_self _
      | some e => nofun
    | finalize closing => nofun
    | readOneByte value failure => exact h.handle
    | identity => exact h.handle

/-! ### Every step answers, and keeps it -/

theorem exec_next (h : s.Inv) (hph : s.ph = .idle) {i : Instr} (hwf : i.wf = true) : ∃ t, exec i s = .next t ∧ t.Inv := by
  by_cases hv : (ruleOf s.params i).violations = 0
  · exact ⟨_, exec_ok hv, h.loadFrame (ruleOf_frame_length_pos _ i) (ruleOf_frame_length_le _ hwf)⟩
  · exact ⟨_, exec_violating hv, h.refuseViolations hph hv (ruleOf_violations_lt _ hwf)⟩

theorem acceptDescriptor_next (h : s.Inv) (hph : s.ph = .idle) (d : Descriptor) :
    ∃ t, acceptDescriptor d s = .next t ∧ t.Inv := by
  cases hdec : decode d with
  | ok i => rw [acceptDescriptor_ok hdec]; exact h.exec_next hph (decode_wf hdec)
  | error e => exact ⟨_, acceptDescriptor_error hdec s, h.refuseIllegal hph⟩

theorem beat_next (h : s.Inv) (hph : s.ph = .emit) : ∃ t, beat s = .next t ∧ t.Inv := by
  have hoff : s.fidx.toNat < s.fb.length := h.offered hph
  rcases Nat.lt_or_eq_of_le hoff with hmore | hlast
  · exact ⟨_, beat_more hmore, h.beatMore hph hmore _⟩
  · exact ⟨_, beat_last hoff hlast, h.beatLast hph _⟩

theorem txStep_next (h : s.Inv) (hph : s.ph = .emit) (w : TxWires) : ∃ t, txStep w s = .next t ∧ t.Inv := by
  cases herr : w.error with
  | true => exact ⟨_, txStep_error herr s, h.failTransport hph _⟩
  | false =>
    cases hready : w.ready with
    | true => rw [txStep_ready herr hready]; exact h.beat_next hph
    | false => exact ⟨_, txStep_silent herr hready s, h.wait⟩

theorem clockEdge_next (h : s.Inv) (p : PortSample) : ∃ t, clockEdge p s = .next t ∧ t.Inv := by
  cases hrst : p.rst with
  | true => exact ⟨_, clockEdge_reset hrst s, h.resetStep⟩
  | false =>
    rcases s.ph.idle_or_emit with hph | hph
    · cases hcmd : p.cmd with
      | none => exact ⟨_, clockEdge_idle_none hrst hph hcmd, h.wait⟩
      | some d => rw [clockEdge_idle_some hrst hph hcmd]; exact h.acceptDescriptor_next hph d
    · rw [clockEdge_emit hrst hph]; exact h.txStep_next hph _

theorem step_next (h : s.Inv) : ∃ t, step s = .next t ∧ t.Inv := by
  match henv : s.env with
  | [] => rw [step_quiet henv]; exact h.clockEdge_next _
  | .edge p :: rest => rw [step_edge henv]; exact (h.setEnv rest).clockEdge_next p
  | .call c :: rest => exact ⟨_, step_call henv, (h.setEnv rest).call c⟩

/-- Whatever a step from a state with the invariant answers has the invariant. -/
theorem of_step {t : State} (h : s.Inv) (hstep : step s = .next t) : t.Inv := by
  obtain ⟨u, hu, hinv⟩ := h.step_next
  cases hstep.symm.trans hu
  exact hinv

end State.Inv

/-- The reset state has no channel, no frame and no result. -/
theorem inv_reset : State.reset.Inv where
  params := by decide
  frame := by decide
  index := by decide
  offered := nofun
  inFlight := nofun
  violations := by decide
  violationBits := by decide
  sent := by decide
  txerr _ := rfl
  refused _ := rfl
  strobe := nofun
  handle := nofun

/-! ### The statements about the invariant -/

/-- Settles O47: the step is an edge or a call, and each of them answers a state with the invariant. -/
theorem everyStepKeepsTheInvariant : Obligations.EveryStepKeepsTheInvariant := fun _ h => h.step_next

/-- Settles O46: the invariant is `inv_reset`; the rest are the fields of `State.reset`. -/
theorem resetStateHasTheInvariant : Obligations.ResetStateHasTheInvariant :=
  ⟨inv_reset, rfl, rfl, rfl, rfl, rfl, rfl, rfl, rfl, rfl, rfl⟩

/-- Settles O42: the outputs are read off the phase, and in EMIT the invariant has a byte at `FIDX`. -/
theorem outputsFollowThePhase : Obligations.OutputsFollowThePhase := by
  intro s h
  constructor
  · intro hph
    simp [State.cmdReady, State.txValid, State.txLast, hph]
  · intro hph
    have hoff : s.fidx.toNat < s.fb.length := h.offered hph
    have hbyte : s.fb[s.fidx.toNat]? = some s.fb[s.fidx.toNat] := List.getElem?_eq_getElem hoff
    refine ⟨by simp [State.cmdReady, hph], by simp [State.txValid, hph], ⟨_, ?_, hbyte⟩, ?_⟩
    · simp [State.txData, hph, hbyte]
    · simp [State.txLast, hph, h.flen_toNat]

end Sys2Proof.Machine

/-! ## What every step leaves unchanged, and what ends a frame -/

namespace Sys2Proof.Machine

/-! ### The parameters -/

theorem accept_params {r : CommandRule} {s t : State} (h : accept r s = .next t) : t.params = s.params := by
  obtain ⟨-, rfl⟩ | ⟨-, rfl⟩ := accept_cases h <;> rfl

theorem acceptDescriptor_params {d : Descriptor} {s t : State} (h : acceptDescriptor d s = .next t) :
    t.params = s.params := by
  obtain ⟨i, -, hexec⟩ | ⟨e, -, rfl⟩ := acceptDescriptor_cases h
  · exact accept_params ((exec_eq_accept i s).symm.trans hexec)
  · rfl

theorem beat_params {s t : State} (h : beat s = .next t) : t.params = s.params := by
  obtain ⟨b, -, ⟨-, rfl⟩ | ⟨-, rfl⟩⟩ := beat_cases h <;> rfl

theorem txStep_params {w : TxWires} {s t : State} (h : txStep w s = .next t) : t.params = s.params := by
  obtain ⟨-, rfl⟩ | ⟨-, -, hbeat⟩ | ⟨-, -, rfl⟩ := txStep_cases h
  · rfl
  · exact beat_params hbeat
  · rfl

theorem clockEdge_params {p : PortSample} {s t : State} (h : clockEdge p s = .next t) : t.params = s.params := by
  obtain ⟨-, rfl⟩ | ⟨-, -, -, rfl⟩ | ⟨-, -, d, -, haccept⟩ | ⟨-, -, htx⟩ := clockEdge_cases h
  · rfl
  · rfl
  · exact acceptDescriptor_params haccept
  · exact txStep_params htx

/-- Settles O49: neither an edge nor a call of the transport writes a parameter. -/
theorem noStepChangesTheParameters : Obligations.NoStepChangesTheParameters := by
  intro s t hstep
  obtain ⟨rest, ⟨p, hedge⟩ | ⟨c, rfl⟩⟩ := step_cases hstep
  · have hparams := clockEdge_params hedge
    exact hparams
  · rfl

/-! ### The end of a frame in flight -/

/-- Everything an edge can do in EMIT. -/
theorem clockEdge_emit_cases {p : PortSample} {s t : State} (hph : s.ph = .emit) (h : clockEdge p s = .next t) :
    (p.rst = true ∧ t = s.resetStep) ∨ (∃ code, t = s.failTransport code) ∨
    (∃ b, s.fb[s.fidx.toNat]? = some b ∧ (t = s.beatLast b ∨ t = s.beatMore b)) ∨ t = s.wait := by
  cases hrst : p.rst with
  | true =>
    cases (clockEdge_reset hrst s).symm.trans h
    exact .inl ⟨rfl, rfl⟩
  | false =>
    rw [clockEdge_emit hrst hph] at h
    obtain ⟨-, rfl⟩ | ⟨-, -, hbeat⟩ | ⟨-, -, rfl⟩ := txStep_cases h
    · exact .inr (.inl ⟨_, rfl⟩)
    · obtain ⟨b, hb, ⟨-, rfl⟩ | ⟨-, rfl⟩⟩ := beat_cases hbeat
      · exact .inr (.inr (.inl ⟨b, hb, .inl rfl⟩))
      · exact .inr (.inr (.inl ⟨b, hb, .inr rfl⟩))
    · exact .inr (.inr (.inr rfl))

/-- The failure and the last beat end the frame with a result and strobe; the reset ends it without one. -/
theorem clockEdge_emit_strobe {p : PortSample} {s t : State} (hph : s.ph = .emit) (h : clockEdge p s = .next t) :
    (t.resValid = true ↔ t.ph = .idle ∧ t.resKind ≠ .none) ∧ (t.ph = .idle → t.resKind = .none → p.rst = true) := by
  obtain ⟨hrst, rfl⟩ | ⟨code, rfl⟩ | ⟨b, -, rfl | rfl⟩ | rfl := clockEdge_emit_cases hph h
  · simp [hrst]
  · simp
  · simp
  · simp [hph]
  · simp [hph]

/-- Settles O50: a call of the transport leaves the frame in flight, so only an edge ends it. -/
theorem strobeMarksTheEndOfTheCommandInFlight : Obligations.StrobeMarksTheEndOfTheCommandInFlight := by
  intro s t _ hph hstep
  match henv : s.env with
  | [] =>
    rw [step_quiet henv] at hstep
    obtain ⟨hstrobe, hreset⟩ := clockEdge_emit_strobe hph hstep
    exact ⟨hstrobe, fun hidle hnone => absurd (hreset hidle hnone) (by decide)⟩
  | .edge p :: rest =>
    obtain ⟨hstrobe, hreset⟩ := clockEdge_emit_strobe (s := { s with env := rest }) hph ((step_edge henv).symm.trans hstep)
    exact ⟨hstrobe, fun hidle hnone => ⟨p, rest, rfl, hreset hidle hnone⟩⟩
  | .call c :: rest =>
    cases (step_call henv).symm.trans hstep
    simp [hph]

end Sys2Proof.Machine

/-! ## A frame handed over

A beat at a time, then over any number of acknowledged and delayed bytes, then the whole command. -/

namespace Sys2Proof.Machine

/-! ### One beat -/

/-- Settles O38: the edge is the beat step, and `FIDX` decides which of its two updates it takes. -/
theorem beatHandsOverTheOfferedByte : Obligations.BeatHandsOverTheOfferedByte := by
  intro s p rest h hph hlink henv hrst hready herr
  have hoff : s.fidx.toNat < s.fb.length := h.offered hph
  have hstep := (step_edge henv).trans (clockEdge_ready hrst hph hlink hready herr)
  have hbyte : s.fb[s.fidx.toNat]? = some s.fb[s.fidx.toNat] := List.getElem?_eq_getElem hoff
  have herrset : s.errset = 0 := h.errset_of_emit hph
  rcases Nat.lt_or_eq_of_le hoff with hmore | hlast
  · exact ⟨_, _, hstep.trans (beat_more (s := { s with env := rest }) hmore), hbyte, rfl, rfl, herrset, rfl, rfl, rfl, rfl,
      fun _ => ⟨hph, h.fidx_succ_toNat hmore, h.resKind_of_emit hph, rfl, rfl⟩,
      fun hlast => absurd hlast (Nat.ne_of_lt hmore)⟩
  · exact ⟨_, _, hstep.trans (beat_last (s := { s with env := rest }) hoff hlast), hbyte, rfl, rfl, herrset, rfl, rfl, rfl,
      rfl, fun hmore => absurd hlast (Nat.ne_of_lt hmore), fun _ => ⟨rfl, h.flen_toNat, rfl, h.flen_toNat, rfl⟩⟩

/-! ### Beats and delays -/

/-- From `s` to `t`, both in EMIT, the next `k` bytes of the frame were handed over; the inputs still to come are
`rest`. -/
structure HandedOver (k : Nat) (rest : List Event) (s t : State) : Prop where
  inv : t.Inv
  ph : t.ph = .emit
  fb : t.fb = s.fb
  fidx : t.fidx.toNat = s.fidx.toNat + k
  tx : t.tx = s.tx ++ (s.fb.drop s.fidx.toNat).take k
  transport : t.transport = s.transport
  params : t.params = s.params
  env : t.env = rest

theorem HandedOver.refl {s : State} (h : s.Inv) (hph : s.ph = .emit) : HandedOver 0 s.env s s :=
  ⟨h, hph, rfl, rfl, by simp, rfl, rfl, rfl⟩

theorem HandedOver.trans {j k : Nat} {rest rest' : List Event} {s t u : State} (hst : HandedOver j rest s t)
    (htu : HandedOver k rest' t u) : HandedOver (j + k) rest' s u where
  inv := htu.inv
  ph := htu.ph
  fb := htu.fb.trans hst.fb
  fidx := by rw [htu.fidx, hst.fidx, Nat.add_assoc]
  tx := by rw [htu.tx, hst.tx, hst.fb, hst.fidx, List.append_assoc, ← List.drop_drop, ← List.take_add]
  transport := htu.transport.trans hst.transport
  params := htu.params.trans hst.params
  env := htu.env

/-! ### Runs -/

theorem run_succ {n : Nat} {s t : State} (h : step s = .next t) : run (n + 1) s = run n t := by
  simp [run, h]

theorem run_add {m n : Nat} {s t : State} (h : run m s = .next t) : run (m + n) s = run n t := by
  induction m generalizing s with
  | zero => cases h; rw [Nat.zero_add]
  | succ m ih =>
    rw [Nat.succ_add]
    cases hstep : step s with
    | next u => rw [run_succ hstep] at h ⊢; exact ih h
    | fault r => simp [run, hstep] at h
    | refused r => simp [run, hstep] at h

theorem calm_iff {p : PortSample} : p.calm = true ↔ p.rst = false ∧ p.tx.error = false := by
  simp [PortSample.calm]

theorem acks_cons (p : PortSample) (ps : List PortSample) : acks (p :: ps) = acks [p] + acks ps :=
  List.countP_append (l₁ := [p])

section

variable {s : State} {rest : List Event}

/-- One calm sample hands over the offered byte, or delays it. -/
theorem step_calm {p : PortSample} (h : s.Inv) (hph : s.ph = .emit) (hlink : s.transport.linked = true)
    (hcalm : p.calm = true) (henv : s.env = .edge p :: rest) (hroom : s.fidx.toNat + acks [p] < s.fb.length) :
    ∃ t, step s = .next t ∧ HandedOver (acks [p]) rest s t := by
  obtain ⟨hrst, herr⟩ := calm_iff.mp hcalm
  cases hready : p.tx.ready with
  | true =>
    have hone : acks [p] = 1 := by simp [acks, hready]
    rw [hone] at hroom ⊢
    obtain ⟨t, b, hstep, hb, htx, hfb, -, -, htr, hpar, hrest, hmore, -⟩ :=
      beatHandsOverTheOfferedByte s p rest h hph hlink henv hrst hready herr
    obtain ⟨hph', hfidx, -, -, -⟩ := hmore hroom
    refine ⟨t, hstep, h.of_step hstep, hph', hfb, hfidx, ?_, htr, hpar, hrest⟩
    rw [htx, List.take_one, List.head?_drop, hb, Option.toList_some]
  | false =>
    have hnone : acks [p] = 0 := by simp [acks, hready]
    rw [hnone]
    have hstep := (step_edge henv).trans (clockEdge_silent hrst hph hready herr)
    exact ⟨_, hstep, h.of_step hstep, hph, rfl, rfl, by simp, rfl, rfl, rfl⟩

/-- Calm samples hand over as many bytes as they acknowledge, whatever the delays between them. -/
theorem run_calm {ps : List PortSample} (h : s.Inv) (hph : s.ph = .emit) (hlink : s.transport.linked = true)
    (hcalm : ps.all PortSample.calm = true) (henv : s.env = ps.map .edge ++ rest)
    (hroom : s.fidx.toNat + acks ps < s.fb.length) : ∃ t, run ps.length s = .next t ∧ HandedOver (acks ps) rest s t := by
  induction ps generalizing s with
  | nil => exact ⟨s, rfl, { HandedOver.refl h hph with env := henv }⟩
  | cons p ps ih =>
    rw [List.all_cons, Bool.and_eq_true] at hcalm
    obtain ⟨hp, hps⟩ := hcalm
    rw [acks_cons] at hroom ⊢
    obtain ⟨u, hstep, hu⟩ := step_calm h hph hlink hp henv (by omega)
    obtain ⟨t, hrun, ht⟩ := ih hu.inv hu.ph (hu.transport ▸ hlink) hps hu.env (by rw [hu.fidx, hu.fb]; omega)
    exact ⟨t, (run_succ hstep).trans hrun, hu.trans ht⟩

/-- A valid command presented to an idle block, then calm samples that do not complete its frame: the block is in EMIT,
with the acknowledged bytes on TX. -/
theorem run_accepted_calm {d : Descriptor} {i : Instr} {ps : List PortSample} (h : s.Inv) (hph : s.ph = .idle)
    (hchan : s.transport.chan.isSome = true) (hdec : decode d = .ok i) (hvalid : (ruleOf s.params i).violations = 0)
    (hcalm : ps.all PortSample.calm = true) (hroom : acks ps < (ruleOf s.params i).frame.length)
    (henv : s.env = .edge (.present d) :: (ps.map .edge ++ rest)) :
    ∃ t, run (ps.length + 1) s = .next t ∧ HandedOver (acks ps) rest (s.loadFrame (ruleOf s.params i).frame) t := by
  have hstep := ((step_edge henv).trans (clockEdge_legal rfl hph rfl hdec)).trans (exec_ok hvalid)
  obtain ⟨t, hrun, ht⟩ := run_calm (h.of_step hstep) rfl (by simp [Transport.linked, hchan]) hcalm rfl
    (by simpa using hroom)
  exact ⟨t, (run_succ hstep).trans hrun, { ht with }⟩

end

/-- Settles O51: the accept step, the samples before the last one, and the last beat. -/
theorem acknowledgedCommandPutsItsFrameOnTx : Obligations.AcknowledgedCommandPutsItsFrameOnTx := by
  intro s d i ps last rest h hph hchan hdec hvalid hcalm hcalmLast hready hacks henv
  obtain ⟨hrst, herr⟩ := calm_iff.mp hcalmLast
  obtain ⟨t, hrun, ht⟩ := run_accepted_calm (rest := .edge last :: rest) h hph hchan hdec hvalid hcalm (by omega)
    (by simpa using henv)
  have hlink : t.transport.linked = true := by simp [ht.transport, Transport.linked, hchan]
  have hfidx : t.fidx.toNat = acks ps := by simpa using ht.fidx
  have hfb : t.fb = (ruleOf s.params i).frame := ht.fb
  obtain ⟨u, b, hstep, hb, htx, -, herrset, htxerr, -, -, hrest, -, hend⟩ :=
    beatHandsOverTheOfferedByte t last rest ht.inv ht.ph hlink ht.env hrst hready herr
  obtain ⟨hidle, -, hkind, hsent, hstrobe⟩ := hend (by rw [hfidx, hfb, hacks])
  refine ⟨u, (run_add (n := 1) hrun).trans (run_succ hstep), hidle, ?_, hkind, herrset, hfb ▸ hsent,
    htxerr.trans (ht.inv.resTxerr_of_emit ht.ph), hstrobe, hrest⟩
  have htake : (ruleOf s.params i).frame.take (acks ps + 1) = (ruleOf s.params i).frame.take (acks ps) ++ [b] := by
    rw [List.take_add_one, ← hfb, ← hfidx, hb, Option.toList_some]
  calc u.tx = t.tx ++ [b] := htx
    _ = s.tx ++ (ruleOf s.params i).frame.take (acks ps) ++ [b] := by rw [ht.tx]; rfl
    _ = s.tx ++ (ruleOf s.params i).frame := by
      rw [List.append_assoc, ← htake, hacks, List.take_length]

end Sys2Proof.Machine

/-! ## What an edge can do to an idle block, and what no edge touches -/

namespace Sys2Proof.Machine

/-- Everything an edge can do in IDLE. -/
theorem clockEdge_idle_cases {p : PortSample} {s t : State} (hph : s.ph = .idle) (h : clockEdge p s = .next t) :
    t = s.resetStep ∨ t = s.wait ∨ (∃ F, t = s.loadFrame F) ∨ (∃ V, t = s.refuseViolations V) ∨ t = s.refuseIllegal := by
  obtain ⟨-, rfl⟩ | ⟨-, -, -, rfl⟩ | ⟨-, -, d, -, haccept⟩ | ⟨-, hemit, -⟩ := clockEdge_cases h
  · exact .inl rfl
  · exact .inr (.inl rfl)
  · obtain ⟨i, -, hexec⟩ | ⟨e, -, rfl⟩ := acceptDescriptor_cases haccept
    · obtain ⟨-, rfl⟩ | ⟨-, rfl⟩ := accept_cases ((exec_eq_accept i s).symm.trans hexec)
      · exact .inr (.inr (.inl ⟨_, rfl⟩))
      · exact .inr (.inr (.inr (.inl ⟨_, rfl⟩)))
    · exact .inr (.inr (.inr (.inr rfl)))
  · cases hph.symm.trans hemit

/-- An edge opens and closes no channel and consumes no input beyond its own. -/
theorem clockEdge_chan_env {p : PortSample} {s t : State} (h : clockEdge p s = .next t) :
    t.transport.chan = s.transport.chan ∧ t.env = s.env := by
  rcases s.ph.idle_or_emit with hph | hph
  · obtain rfl | rfl | ⟨F, rfl⟩ | ⟨V, rfl⟩ | rfl := clockEdge_idle_cases hph h <;> exact ⟨rfl, rfl⟩
  · obtain ⟨-, rfl⟩ | ⟨code, rfl⟩ | ⟨b, -, rfl | rfl⟩ | rfl := clockEdge_emit_cases hph h <;> exact ⟨rfl, rfl⟩

/-- Only the beat writes to TX, the offered byte. -/
theorem clockEdge_tx {p : PortSample} {s t : State} (h : clockEdge p s = .next t) :
    t.tx = s.tx ∨ (s.ph = .emit ∧ ∃ b, s.fb[s.fidx.toNat]? = some b ∧ t.tx = s.tx ++ [b]) := by
  rcases s.ph.idle_or_emit with hph | hph
  · obtain rfl | rfl | ⟨F, rfl⟩ | ⟨V, rfl⟩ | rfl := clockEdge_idle_cases hph h <;> exact .inl rfl
  · obtain ⟨-, rfl⟩ | ⟨code, rfl⟩ | ⟨b, hb, rfl | rfl⟩ | rfl := clockEdge_emit_cases hph h
    · exact .inl rfl
    · exact .inl rfl
    · exact .inr ⟨hph, b, hb, rfl⟩
    · exact .inr ⟨hph, b, hb, rfl⟩
    · exact .inl rfl

/-- Settles O48: an edge appends at most the offered byte, and a call of the transport appends nothing. -/
theorem txGrowsOnlyByTheOfferedByte : Obligations.TxGrowsOnlyByTheOfferedByte := by
  intro s t hstep
  obtain ⟨rest, ⟨p, hedge⟩ | ⟨c, rfl⟩⟩ := step_cases hstep
  · have htx := clockEdge_tx hedge
    exact htx
  · exact .inl rfl

end Sys2Proof.Machine

/-! ## Frames one after the other

A presented descriptor is a run that ends idle with its frame on TX; what runs keep lets the next one follow. -/

namespace Sys2Proof.Machine

/-! ### What a run keeps -/

theorem run_keeps {P : State → Prop} (hstep : ∀ {s t : State}, P s → step s = .next t → P t) {n : Nat} {s t : State}
    (h : P s) (hrun : run n s = .next t) : P t := by
  induction n generalizing s with
  | zero => cases hrun; exact h
  | succ n ih =>
    cases hs : step s with
    | next u => exact ih (hstep h hs) ((run_succ hs).symm.trans hrun)
    | fault r => simp [run, hs] at hrun
    | refused r => simp [run, hs] at hrun

theorem State.Inv.of_run {n : Nat} {s t : State} (h : s.Inv) (hrun : run n s = .next t) : t.Inv :=
  run_keeps State.Inv.of_step h hrun

theorem run_params {n : Nat} {s t : State} (hrun : run n s = .next t) : t.params = s.params :=
  run_keeps (P := fun u => u.params = s.params) (fun h hs => (noStepChangesTheParameters _ _ hs).trans h) rfl hrun

/-- As long as no transport operation is called, the channel stays. -/
theorem run_edges_chan {ps : List PortSample} {rest : List Event} {s t : State} (henv : s.env = ps.map .edge ++ rest)
    (hrun : run ps.length s = .next t) : t.transport.chan = s.transport.chan := by
  induction ps generalizing s with
  | nil => cases hrun; rfl
  | cons p ps ih =>
    cases hs : step s with
    | next u =>
      obtain ⟨hchan, hrest⟩ := clockEdge_chan_env ((step_edge henv).symm.trans hs)
      exact (ih hrest ((run_succ hs).symm.trans hrun)).trans hchan
    | fault r => simp [run, hs] at hrun
    | refused r => simp [run, hs] at hrun

/-! ### What a descriptor delivers -/

section

variable {p : Params} {d : Descriptor}

theorem deliveredFrame_valid {i : Instr} (hdec : decode d = .ok i) (hvalid : (ruleOf p i).violations = 0) :
    deliveredFrame p d = (ruleOf p i).frame := by
  simp only [deliveredFrame, hdec, if_pos hvalid]

theorem deliveredFrame_violating {i : Instr} (hdec : decode d = .ok i) (hv : (ruleOf p i).violations ≠ 0) :
    deliveredFrame p d = [] := by
  simp only [deliveredFrame, hdec, if_neg hv]

theorem deliveredFrame_illegal {e : DecodeReject} (hdec : decode d = .error e) : deliveredFrame p d = [] := by
  simp [deliveredFrame, hdec]

theorem presented_singleton (p : Params) (d : Descriptor) :
    presented p [d] = (.present d :: List.replicate (deliveredFrame p d).length .ack).map .edge := by
  simp [presented]

theorem presented_cons (p : Params) (d : Descriptor) (ds : List Descriptor) :
    presented p (d :: ds) = presented p [d] ++ presented p ds :=
  List.flatMap_append (xs := [d])

end

theorem acks_replicate_ack (n : Nat) : acks (List.replicate n .ack) = n := by
  simp [acks, PortSample.ack, List.countP_replicate]

theorem all_calm_replicate_ack (n : Nat) : (List.replicate n PortSample.ack).all PortSample.calm = true := by
  simp [PortSample.ack, PortSample.quiet, PortSample.calm]

/-! ### One descriptor presented -/

section

variable {s : State} {d : Descriptor} {rest : List Event}

/-- A valid command, every byte acknowledged at once. -/
theorem run_presented_valid {i : Instr} (h : s.Inv) (hph : s.ph = .idle) (hchan : s.transport.chan.isSome = true)
    (hdec : decode d = .ok i) (hvalid : (ruleOf s.params i).violations = 0) (henv : s.env = presented s.params [d] ++ rest) :
    ∃ t, run (presented s.params [d]).length s = .next t ∧ t.ph = .idle ∧ t.tx = s.tx ++ deliveredFrame s.params d ∧
      t.env = rest := by
  obtain ⟨n, hn⟩ : ∃ n, (ruleOf s.params i).frame.length = n + 1 :=
    Nat.exists_eq_succ_of_ne_zero (ruleOf_frame_length_pos _ i).ne'
  rw [presented_singleton, deliveredFrame_valid hdec hvalid, hn, List.replicate_succ'] at henv
  rw [presented_singleton, deliveredFrame_valid hdec hvalid, hn]
  obtain ⟨t, hrun, hidle, htx, -, -, -, -, -, hrest⟩ :=
    acknowledgedCommandPutsItsFrameOnTx s d i (List.replicate n .ack) .ack rest h hph hchan hdec hvalid
      (all_calm_replicate_ack n) rfl rfl (by rw [acks_replicate_ack, hn]) henv
  exact ⟨t, by simpa using hrun, hidle, htx, hrest⟩

/-- A refused descriptor: the edge that presents it ends it, with nothing on TX. -/
theorem run_presented_refused {t : State} (hnone : deliveredFrame s.params d = [])
    (henv : s.env = presented s.params [d] ++ rest) (haccept : acceptDescriptor d { s with env := rest } = .next t)
    (hph : s.ph = .idle) : run (presented s.params [d]).length s = .next t := by
  rw [presented_singleton, hnone] at henv ⊢
  exact run_succ (((step_edge henv).trans (clockEdge_idle_some rfl hph rfl)).trans haccept)

/-- Any descriptor: valid, violating or illegal. -/
theorem run_presented_one (h : s.Inv) (hph : s.ph = .idle) (hchan : s.transport.chan.isSome = true)
    (henv : s.env = presented s.params [d] ++ rest) :
    ∃ t, run (presented s.params [d]).length s = .next t ∧ t.ph = .idle ∧ t.tx = s.tx ++ deliveredFrame s.params d ∧
      t.env = rest := by
  cases hdec : decode d with
  | ok i =>
    by_cases hv : (ruleOf s.params i).violations = 0
    · exact run_presented_valid h hph hchan hdec hv henv
    · have hnone := deliveredFrame_violating hdec hv
      have haccept := (acceptDescriptor_ok hdec { s with env := rest }).trans (exec_violating hv)
      exact ⟨_, run_presented_refused hnone henv haccept hph, hph, by simp [hnone], rfl⟩
  | error e =>
    have hnone : deliveredFrame s.params d = [] := deliveredFrame_illegal hdec
    exact ⟨_, run_presented_refused hnone henv (acceptDescriptor_error hdec _) hph, hph, by simp [hnone], rfl⟩

end

/-- Settles O53, by induction on the descriptors: after each one the block is idle with its channel open. -/
theorem framesStandOnTxInOrderOfAcceptance : Obligations.FramesStandOnTxInOrderOfAcceptance := by
  intro s ds rest h hph hchan henv
  induction ds generalizing s with
  | nil => exact ⟨s, rfl, hph, by simp, henv⟩
  | cons d ds ih =>
    rw [presented_cons, List.append_assoc] at henv
    obtain ⟨t, hrun, hidle, htx, hrest⟩ := run_presented_one h hph hchan henv
    have hparams : t.params = s.params := run_params hrun
    have hopen : t.transport.chan = s.transport.chan := by
      rw [presented_singleton] at henv hrun
      exact run_edges_chan henv (by simpa using hrun)
    obtain ⟨u, hrun', hidle', htx', hrest'⟩ := ih t (h.of_run hrun) hidle (hopen ▸ hchan) (hparams ▸ hrest)
    rw [hparams] at hrun' htx'
    refine ⟨u, ?_, hidle', ?_, hrest'⟩
    · rw [presented_cons, List.length_append]
      exact (run_add hrun).trans hrun'
    · rw [htx', htx, List.flatMap_cons, List.append_assoc]

end Sys2Proof.Machine

/-! ## The transport without a channel, and its operations -/

namespace Sys2Proof.Machine

/-! ### An answer without a channel -/

theorem answer_of_unlinked {t : Transport} (h : t.linked = false) (w : TxWires) :
    t.answer w = { w with ready := false, error := w.ready || w.error } :=
  if_neg (Bool.eq_false_iff.mp h)

/-- Without a channel an acknowledgement fails the frame like an error does (R43, R173). -/
theorem clockEdge_unlinked {p : PortSample} {s : State} (hrst : p.rst = false) (hph : s.ph = .emit)
    (hlink : s.transport.linked = false) (hanswer : p.tx.ready = true ∨ p.tx.error = true) :
    clockEdge p s = .next (s.failTransport p.tx.ecode) := by
  rw [clockEdge_emit hrst hph, answer_of_unlinked hlink, txStep_error (by simpa using hanswer)]

/-- Settles O40: the step is the fail step. -/
theorem closedChannelFailsTheOfferedByte : Obligations.ClosedChannelFailsTheOfferedByte := by
  intro s p rest hph hlink henv hrst hanswer
  exact ⟨_, (step_edge henv).trans (clockEdge_unlinked hrst hph hlink hanswer),
    rfl, rfl, rfl, rfl, rfl, rfl, rfl, rfl, rfl, rfl, rfl, rfl⟩

/-! ### The agent after a call -/

@[simp] theorem call_readOneByte_transport (s : State) (value : Byte) (failure : Option Byte) :
    (s.call (.readOneByte value failure)).transport = s.transport.readOneByte value failure := rfl

@[simp] theorem call_identity_transport (s : State) : (s.call .identity).transport = s.transport.identity := rfl

theorem connect_chan_opened (inFlight : Bool) (closing : Option Byte) (t : Transport) :
    (t.connect inFlight closing none).chan = some t.opened := rfl

theorem connect_chan_failed (inFlight : Bool) (closing : Option Byte) {opening : Option Byte} (h : opening ≠ none)
    (t : Transport) : (t.connect inFlight closing opening).chan = none := by
  simp [Transport.connect, h]

theorem finalize_lastReturn_open (inFlight : Bool) (closing : Option Byte) {t : Transport} (h : t.chan ≠ none) :
    (t.finalize inFlight closing).lastReturn = .errors { closing := closing, opening := none } := by
  simp [Transport.finalize, Option.isSome_iff_ne_none, h]

theorem finalize_lastReturn_closed (inFlight : Bool) (closing : Option Byte) {t : Transport} (h : t.chan = none) :
    (t.finalize inFlight closing).lastReturn = .errors { closing := none, opening := none } := by
  simp [Transport.finalize, h]

/-- The next handle is not in use: an open channel was opened by a past call (log 12). -/
theorem State.Inv.chan_ne_opened {s : State} (h : s.Inv) : s.transport.chan ≠ some s.transport.opened :=
  fun hchan => Nat.lt_irrefl _ (h.handle _ hchan)

/-! ### The statements about the calls -/

/-- Settles O43: the step is the call, and the invariant makes the new handle a fresh one. -/
theorem connectDropsTheOldChannelAndReportsBothFailures : Obligations.ConnectDropsTheOldChannelAndReportsBothFailures := by
  intro s closing opening rest h henv
  refine ⟨_, step_call henv, ?_, fun hfail => connect_chan_failed _ closing hfail s.transport,
    rfl, rfl, rfl, rfl, rfl, rfl, rfl, rfl, rfl, rfl, rfl, rfl, rfl⟩
  rintro rfl
  exact ⟨_, connect_chan_opened _ closing s.transport, h.chan_ne_opened⟩

/-- Settles O44: the step is the call, and the handle before it decides what is returned. -/
theorem finalizeClearsTheChannel : Obligations.FinalizeClearsTheChannel := by
  intro s closing rest henv
  exact ⟨_, step_call henv, rfl, rfl, fun hopen => finalize_lastReturn_open _ closing hopen,
    fun hclosed => finalize_lastReturn_closed _ closing hclosed,
    rfl, rfl, rfl, rfl, rfl, rfl, rfl, rfl, rfl, rfl, rfl, rfl⟩

/-- Settles O45: either call writes the returned value alone. -/
theorem probesOfTheTransportChangeNothing : Obligations.ProbesOfTheTransportChangeNothing := by
  intro s value failure rest c hc henv
  refine ⟨_, step_call henv, ?_⟩
  obtain rfl | rfl := hc
  · simp [Transport.readOneByte]
  · simp [Transport.identity]

end Sys2Proof.Machine

/-! ## The opcode map and the decoder

A selector matches at most one row of R60, and outside opcode 136 the opcode alone decides which. -/

namespace Sys2Proof

/-! ### The selector -/

theorem Descriptor.sel_toNat (d : Descriptor) : d.sel.toNat = 256 * d.var.toNat + d.op.toNat := by
  have happend : d.sel.toNat = d.var.toNat <<< 8 ||| d.op.toNat :=
    (BitVec.toNat_append _ _).trans (by rw [BitVec.toNat_ofBool])
  rw [happend, ← Nat.shiftLeft_add_eq_or_of_lt d.op.isLt, Nat.shiftLeft_eq, Nat.mul_comm]

/-- The low byte of the selector is the opcode (R51). -/
theorem Descriptor.sel_setWidth (d : Descriptor) : d.sel.setWidth 8 = d.op := by
  apply BitVec.eq_of_toNat_eq
  rw [BitVec.toNat_setWidth, sel_toNat]
  omega

theorem Descriptor.sel_inj {d d' : Descriptor} : d.sel = d'.sel ↔ d.var = d'.var ∧ d.op = d'.op := by
  rw [← BitVec.toNat_inj, ← BitVec.toNat_inj, sel_toNat, sel_toNat]
  cases d.var <;> cases d'.var <;> simp <;> omega

/-! ### Which rows match -/

/-- The opcode a row of the map is for: the low byte of its pattern. -/
def MapRow.opcode (r : MapRow) : Byte := r.pattern.setWidth 8

theorem MapRow.matches_iff {r : MapRow} {sel : Selector} : r.matches sel = true ↔ sel &&& r.mask = r.pattern :=
  beq_iff_eq

/-- Every mask of R60 keeps the opcode. -/
theorem opcodeMap_mask_setWidth : ∀ r ∈ opcodeMap, r.mask.setWidth 8 = 0xFF#8 := by
  simp [opcodeMap, opcodeMapLow, opcodeMapMiddle, opcodeMapHigh]

/-- The rows of R60 mask `VAR` out, but for those of opcode 136. -/
theorem opcodeMap_mask_cases : ∀ r ∈ opcodeMap, r.mask = 0x0FF ∧ r.pattern.toNat < 256 ∨ r.opcode = 136 := by
  simp [opcodeMap, opcodeMapLow, opcodeMapMiddle, opcodeMapHigh, MapRow.opcode]

/-- Two rows that match one selector have the same pattern under both masks; no two rows of R60 have. -/
theorem opcodeMap_pairwise : opcodeMap.Pairwise fun r r' => r.pattern &&& r'.mask ≠ r'.pattern &&& r.mask := by
  simp [opcodeMap, opcodeMapLow, opcodeMapMiddle, opcodeMapHigh]

theorem row_unique {r r' : MapRow} (hr : r ∈ opcodeMap) (hr' : r' ∈ opcodeMap) {sel : Selector}
    (h : r.matches sel = true) (h' : r'.matches sel = true) : r = r' := by
  by_contra hne
  have hsymm : Std.Symm fun r r' : MapRow => r.pattern &&& r'.mask ≠ r'.pattern &&& r.mask := ⟨fun _ _ => Ne.symm⟩
  refine opcodeMap_pairwise.forall hr hr' hne ?_
  rw [← MapRow.matches_iff.mp h, ← MapRow.matches_iff.mp h', BitVec.and_assoc, BitVec.and_assoc,
    BitVec.and_comm r.mask]

section

variable {d : Descriptor} {r : MapRow}

theorem op_of_matches (hr : r ∈ opcodeMap) (h : r.matches d.sel = true) : d.op = r.opcode := by
  rw [MapRow.opcode, ← MapRow.matches_iff.mp h, BitVec.setWidth_and, opcodeMap_mask_setWidth r hr, d.sel_setWidth]
  exact BitVec.and_allOnes.symm

/-- Under every opcode but 136 the opcode alone decides the row (R63). -/
theorem matches_iff_op (hr : r ∈ opcodeMap) (hop : d.op ≠ 136) : r.matches d.sel = true ↔ d.op = r.opcode := by
  refine ⟨op_of_matches hr, fun h => ?_⟩
  obtain ⟨hmask, hlow⟩ | h136 := opcodeMap_mask_cases r hr
  · have hopcode : r.opcode.toNat = r.pattern.toNat := by
      rw [MapRow.opcode, BitVec.toNat_setWidth, Nat.mod_eq_of_lt hlow]
    have hmod := Nat.and_two_pow_sub_one_eq_mod d.sel.toNat 8
    rw [MapRow.matches_iff, hmask, ← BitVec.toNat_inj, BitVec.toNat_and, ← hopcode, ← h]
    exact hmod.trans (by rw [d.sel_toNat]; omega)
  · exact absurd (h.trans h136) hop

/-- R62: a selector is legal when its opcode is one of the map's; both values of `VAR` are for opcode 136. -/
theorem exists_matches_iff : (∃ r ∈ opcodeMap, r.matches d.sel = true) ↔ d.op ∈ opcodeMap.map MapRow.opcode := by
  rw [List.mem_map]
  constructor
  · rintro ⟨r, hr, h⟩
    exact ⟨r, hr, (op_of_matches hr h).symm⟩
  · rintro ⟨r, hr, h⟩
    by_cases hop : d.op = 136
    · rw [sel_eq, hop]
      cases d.var with
      | false => decide
      | true => decide
    · exact ⟨r, hr, (matches_iff_op hr hop).mpr h.symm⟩

/-! ### What the decoder answers -/

theorem decode_of_matches (hr : r ∈ opcodeMap) (h : r.matches d.sel = true) : decode d = .ok (r.operands d) := by
  have hsome : (opcodeMap.find? fun r => r.matches d.sel).isSome = true := List.find?_isSome.mpr ⟨r, hr, h⟩
  obtain ⟨r', hfind⟩ := Option.isSome_iff_exists.mp hsome
  have hrow : r' = r := row_unique (List.mem_of_find?_eq_some hfind) hr (by simpa using List.find?_some hfind) h
  simp only [decode, hfind, hrow]

theorem decode_of_no_match (h : ∀ r ∈ opcodeMap, ¬ r.matches d.sel = true) : decode d = .error (.illegalSelector d.sel) := by
  simp only [decode, List.find?_eq_none.mpr h]

/-- A descriptor names no command exactly when its opcode is none of the map's (R62). -/
theorem decode_error_iff : (∃ e, decode d = .error e) ↔ d.op ∉ opcodeMap.map MapRow.opcode := by
  rw [← exists_matches_iff]
  constructor
  · rintro ⟨e, he⟩ ⟨r, hr, h⟩
    cases he.symm.trans (decode_of_matches hr h)
  · intro h
    exact ⟨_, decode_of_no_match fun r hr hm => h ⟨r, hr, hm⟩⟩

/-- The thirty rows cover these opcodes (R60, R62). -/
theorem notMem_opcodes_iff (op : Byte) : op ∉ opcodeMap.map MapRow.opcode ↔
    op.toNat ≤ 127 ∨ op.toNat = 130 ∨ (152 ≤ op.toNat ∧ op.toNat ≤ 161) ∨ op.toNat = 166 ∨ 169 ≤ op.toNat := by
  simp [opcodeMap, opcodeMapLow, opcodeMapMiddle, opcodeMapHigh, MapRow.opcode, ← BitVec.toNat_inj]
  omega

/-- No command reads `VAR` as an operand. -/
theorem operands_var (v : Bool) : ∀ r ∈ opcodeMap, r.operands { d with var := v } = r.operands d := by
  simp [opcodeMap, opcodeMapLow, opcodeMapMiddle, opcodeMapHigh, Descriptor.items, Descriptor.item, Descriptor.notes,
    Descriptor.times]

/-- Outside opcode 136 the decoder reads the opcode and the operands, and nothing else of the selector (R63). -/
theorem decode_toOption_congr {d' : Descriptor} (hop : d'.op = d.op) (hne : d.op ≠ 136)
    (hoperands : ∀ r ∈ opcodeMap, r.operands d' = r.operands d) : (decode d').toOption = (decode d).toOption := by
  cases hdec : decode d with
  | ok i =>
    obtain ⟨r, hr, hm, rfl⟩ := decode_ok hdec
    have hm' : r.matches d'.sel = true := (matches_iff_op hr (hop ▸ hne)).mpr (hop.trans (op_of_matches hr hm))
    rw [decode_of_matches hr hm', hoperands r hr]
  | error e =>
    obtain ⟨e', hdec'⟩ := decode_error_iff.mpr (hop ▸ decode_error_iff.mp ⟨e, hdec⟩)
    rw [hdec']
    rfl

end

/-! ### The statements about the map -/

/-- Settles O4: R61 clause by clause. -/
theorem decoderFollowsTheOpcodeMap : Obligations.DecoderFollowsTheOpcodeMap := by
  intro d
  refine ⟨fun r hr h => ?_, fun r hr r' hr' h h' => ?_, fun h => ?_⟩
  · exact decode_of_matches hr (MapRow.matches_iff.mpr h)
  · exact congrArg _ (row_unique hr hr' (MapRow.matches_iff.mpr h) (MapRow.matches_iff.mpr h'))
  · exact decode_of_no_match fun r hr hm => h r hr (MapRow.matches_iff.mp hm)

/-- Settles O6: outside opcode 136 the opcode decides the row, and no row reads `VAR`. -/
theorem varIsIgnoredExceptUnder136 : Obligations.VarIsIgnoredExceptUnder136 :=
  fun _ v hop => decode_toOption_congr rfl hop (operands_var v)

/-! ### Pairs of bytes in `LIST` -/

/-- The bytes of a list of pairs: the first of pair `i` stands at `2i`, the second at `2i+1`. -/
theorem getD_flatMap_pair {α : Type} (f g : α → Byte) {l : List α} {i : Nat} (hi : i < l.length) :
    (l.flatMap fun a => [f a, g a]).getD (2 * i) 0 = f l[i] ∧
    (l.flatMap fun a => [f a, g a]).getD (2 * i + 1) 0 = g l[i] := by
  induction l generalizing i with
  | nil => cases hi
  | cons a l ih =>
    cases i with
    | zero => exact ⟨rfl, rfl⟩
    | succ i => exact ih (Nat.lt_of_succ_lt_succ hi)

/-- Reading back the pairs a descriptor was given. -/
theorem map_item_pairs {α : Type} {f g : α → Byte} {mk : Byte → Byte → α} (hmk : ∀ a, mk (f a) (g a) = a)
    {d : Descriptor} {l : List α} (hd : d.list = padList (l.flatMap fun a => [f a, g a])) (hl : l.length ≤ 127) :
    (List.range l.length).map (fun i => mk (d.item (2 * i)) (d.item (2 * i + 1))) = l := by
  apply List.ext_getElem (by simp)
  intro i h1 h2
  obtain ⟨hfirst, hsecond⟩ := getD_flatMap_pair f g h2
  rw [List.getElem_map, List.getElem_range, Descriptor.item, Descriptor.item, hd, padList_getD (by omega),
    padList_getD (by omega), hfirst, hsecond, hmk]

theorem notes_padList {d : Descriptor} {notes : List Note} (hlen : notes.length = min d.len.toNat 16)
    (hd : d.list = padList (notes.flatMap fun n => [n.number, n.duration])) : d.notes = notes := by
  rw [Descriptor.notes, ← hlen]
  exact map_item_pairs (fun _ => rfl) hd (by omega)

theorem times_padList {d : Descriptor} {times : List TimeOfDay} (hlen : times.length = 7)
    (hd : d.list = padList (times.flatMap fun t => [t.hour, t.minute])) : d.times = times := by
  rw [Descriptor.times, ← hlen]
  exact map_item_pairs (fun _ => rfl) hd (by omega)

/-- The entries announced by the computed `LEN`. -/
theorem items_len_padList {d : Descriptor} {l : List Byte} (hlen : d.len = BitVec.ofNat 8 l.length)
    (hd : d.list = padList l) (hl : l.length ≤ 255) : d.items d.len.toNat = l := by
  rw [hlen, BitVec.toNat_ofNat, Nat.mod_eq_of_lt (by omega), items_padList hd hl]

end Sys2Proof

/-! ## Decoding by opcode

The illegal opcodes; one theorem per row of R60, for whatever the descriptor's other fields hold; then the round trip. -/

namespace Sys2Proof.Machine

/-! ### The illegal selectors -/

/-- Settles O5: the illegal opcodes are those of no row, and the edge with one of them is `refuseIllegal`. -/
theorem illegalSelectorsAreReportedAndWriteNothing : Obligations.IllegalSelectorsAreReportedAndWriteNothing := by
  refine ⟨fun d => decode_error_iff.trans (notMem_opcodes_iff d.op), ?_⟩
  rintro s p rest d hph henv hrst hcmd ⟨e, he⟩
  have hedge := (clockEdge_idle_some hrst (s := { s with env := rest }) hph hcmd).trans (acceptDescriptor_error he _)
  exact ⟨_, (step_edge henv).trans hedge, hph, rfl, rfl, rfl, rfl, rfl, rfl, rfl, rfl, rfl, rfl, rfl⟩

/-! ### The rows -/

/-- Outside opcode 136 every descriptor with the row's opcode is the row's command. -/
theorem decodesTo_row (n : Nat) (hn : n < opcodeMap.length) (hne : opcodeMap[n].opcode ≠ 136) :
    DecodesTo opcodeMap[n].opcode opcodeMap[n].operands := by
  intro d hop
  have hmem := List.getElem_mem hn
  exact decode_of_matches hmem ((matches_iff_op hmem (hop ▸ hne)).mpr hop)

theorem decodesTo_start : DecodesTo 128 fun _ => .start := decodesTo_row 0 (by decide) (by decide)
theorem decodesTo_baud : DecodesTo 129 fun d => .baud d.b0 := decodesTo_row 1 (by decide) (by decide)
theorem decodesTo_safe : DecodesTo 131 fun _ => .safe := decodesTo_row 2 (by decide) (by decide)
theorem decodesTo_full : DecodesTo 132 fun _ => .full := decodesTo_row 3 (by decide) (by decide)
theorem decodesTo_power : DecodesTo 133 fun _ => .power := decodesTo_row 4 (by decide) (by decide)
theorem decodesTo_spot : DecodesTo 134 fun _ => .spot := decodesTo_row 5 (by decide) (by decide)
theorem decodesTo_clean : DecodesTo 135 fun _ => .clean := decodesTo_row 6 (by decide) (by decide)
theorem decodesTo_drive : DecodesTo 137 fun d => .drive d.w0 d.w1 := decodesTo_row 9 (by decide) (by decide)
theorem decodesTo_motors : DecodesTo 138 fun d => .motors d.flags := decodesTo_row 10 (by decide) (by decide)
theorem decodesTo_leds : DecodesTo 139 fun d => .leds d.flags d.b0 d.b1 := decodesTo_row 11 (by decide) (by decide)
theorem decodesTo_song : DecodesTo 140 fun d => .song d.b0 d.len d.notes := decodesTo_row 12 (by decide) (by decide)
theorem decodesTo_play : DecodesTo 141 fun d => .play d.b0 := decodesTo_row 13 (by decide) (by decide)
theorem decodesTo_sensors : DecodesTo 142 fun d => .sensors d.b0 := decodesTo_row 14 (by decide) (by decide)
theorem decodesTo_seekDock : DecodesTo 143 fun _ => .seekDock := decodesTo_row 15 (by decide) (by decide)
theorem decodesTo_pwmMotors : DecodesTo 144 fun d => .pwmMotors d.b0 d.b1 d.b2 :=
  decodesTo_row 16 (by decide) (by decide)
theorem decodesTo_driveDirect : DecodesTo 145 fun d => .driveDirect d.w0 d.w1 := decodesTo_row 17 (by decide) (by decide)
theorem decodesTo_drivePWM : DecodesTo 146 fun d => .drivePWM d.w0 d.w1 := decodesTo_row 18 (by decide) (by decide)
theorem decodesTo_digitalOutput : DecodesTo 147 fun d => .digitalOutput d.flags :=
  decodesTo_row 19 (by decide) (by decide)
theorem decodesTo_stream : DecodesTo 148 fun d => .stream (d.items d.len.toNat) :=
  decodesTo_row 20 (by decide) (by decide)
theorem decodesTo_queryList : DecodesTo 149 fun d => .queryList (d.items d.len.toNat) :=
  decodesTo_row 21 (by decide) (by decide)
theorem decodesTo_pauseResumeStream : DecodesTo 150 fun d => .pauseResumeStream (d.flags.getLsbD 0) :=
  decodesTo_row 22 (by decide) (by decide)
theorem decodesTo_sendIR : DecodesTo 151 fun d => .sendIR d.b0 := decodesTo_row 23 (by decide) (by decide)
theorem decodesTo_schedulingLEDs : DecodesTo 162 fun d => .schedulingLEDs d.b0 d.flags :=
  decodesTo_row 24 (by decide) (by decide)
theorem decodesTo_digitLEDsRaw : DecodesTo 163 fun d => .digitLEDsRaw d.b0 d.b1 d.b2 d.b3 :=
  decodesTo_row 25 (by decide) (by decide)
theorem decodesTo_digitLEDsASCII : DecodesTo 164 fun d => .digitLEDsASCII (d.items d.len.toNat) :=
  decodesTo_row 26 (by decide) (by decide)
theorem decodesTo_buttons : DecodesTo 165 fun d => .buttons d.flags := decodesTo_row 27 (by decide) (by decide)
theorem decodesTo_schedule : DecodesTo 167 fun d => .schedule d.flags d.times := decodesTo_row 28 (by decide) (by decide)
theorem decodesTo_setDateTime : DecodesTo 168 fun d => .setDateTime d.b0 d.b1 d.b2 :=
  decodesTo_row 29 (by decide) (by decide)

theorem decode_max {d : Descriptor} (hop : d.op = 136) (hvar : d.var = false) : decode d = .ok .max :=
  decode_of_matches (List.getElem_mem (l := opcodeMap) (n := 7) (by decide)) (by rw [sel_eq, hop, hvar]; decide)

theorem decode_demo {d : Descriptor} (hop : d.op = 136) (hvar : d.var = true) : decode d = .ok (.demo d.b0) :=
  decode_of_matches (List.getElem_mem (l := opcodeMap) (n := 8) (by decide)) (by rw [sel_eq, hop, hvar]; decide)

/-! ### The round trip -/

theorem decode_encode {i : Instr} (h : i.wf = true) : decode (encode i) = .ok i := by
  cases i with
  | max => exact decode_max rfl rfl
  | demo _ => exact decode_demo rfl rfl
  | start => exact decodesTo_start _ rfl
  | baud _ => exact decodesTo_baud _ rfl
  | safe => exact decodesTo_safe _ rfl
  | full => exact decodesTo_full _ rfl
  | power => exact decodesTo_power _ rfl
  | spot => exact decodesTo_spot _ rfl
  | clean => exact decodesTo_clean _ rfl
  | drive _ _ => exact decodesTo_drive _ rfl
  | motors _ => exact decodesTo_motors _ rfl
  | leds _ _ _ => exact decodesTo_leds _ rfl
  | play _ => exact decodesTo_play _ rfl
  | sensors _ => exact decodesTo_sensors _ rfl
  | seekDock => exact decodesTo_seekDock _ rfl
  | pwmMotors _ _ _ => exact decodesTo_pwmMotors _ rfl
  | driveDirect _ _ => exact decodesTo_driveDirect _ rfl
  | drivePWM _ _ => exact decodesTo_drivePWM _ rfl
  | digitalOutput _ => exact decodesTo_digitalOutput _ rfl
  | sendIR _ => exact decodesTo_sendIR _ rfl
  | schedulingLEDs _ _ => exact decodesTo_schedulingLEDs _ rfl
  | digitLEDsRaw _ _ _ _ => exact decodesTo_digitLEDsRaw _ rfl
  | buttons _ => exact decodesTo_buttons _ rfl
  | setDateTime _ _ _ => exact decodesTo_setDateTime _ rfl
  | pauseResumeStream resume =>
    have hflag : (encode (.pauseResumeStream resume)).flags.getLsbD 0 = resume := by cases resume <;> rfl
    exact (decodesTo_pauseResumeStream _ rfl).trans (congrArg (fun b => Except.ok (Instr.pauseResumeStream b)) hflag)
  | song slot count notes =>
    have hlen : notes.length = min count.toNat 16 := by simpa [Instr.wf] using h
    have hnotes : (encode (.song slot count notes)).notes = notes := notes_padList hlen rfl
    exact (decodesTo_song _ rfl).trans (congrArg (fun l => Except.ok (Instr.song slot count l)) hnotes)
  | stream ids =>
    have hids := items_len_padList (d := encode (.stream ids)) rfl rfl (by simpa [Instr.wf] using h)
    exact (decodesTo_stream _ rfl).trans (congrArg (fun l => Except.ok (Instr.stream l)) hids)
  | queryList ids =>
    have hids := items_len_padList (d := encode (.queryList ids)) rfl rfl (by simpa [Instr.wf] using h)
    exact (decodesTo_queryList _ rfl).trans (congrArg (fun l => Except.ok (Instr.queryList l)) hids)
  | digitLEDsASCII message =>
    have hmessage := items_len_padList (d := encode (.digitLEDsASCII message)) rfl rfl (by simpa [Instr.wf] using h)
    exact (decodesTo_digitLEDsASCII _ rfl).trans (congrArg (fun l => Except.ok (Instr.digitLEDsASCII l)) hmessage)
  | schedule flags times =>
    have htimes : (encode (.schedule flags times)).times = times := times_padList (by simpa [Instr.wf] using h) rfl
    exact (decodesTo_schedule _ rfl).trans (congrArg (fun l => Except.ok (Instr.schedule flags l)) htimes)

/-- Settles O2: the encoder writes the opcode and the operands of the command's row, and padding keeps a list's entries. -/
theorem decodeOfEncodeIsIdentity : Obligations.DecodeOfEncodeIsIdentity := fun _ h => decode_encode h

end Sys2Proof.Machine

/-! ## The formats of the frames, and the reader

A frame has the length of its command's format, and a reader finds that length at the head of the stream. -/

namespace Sys2Proof.Machine

/-! ### Frame lengths -/

/-- R125: a song of more than sixteen notes violates. -/
theorem ruleSong_count_le {slot count : Byte} {notes : List Note} (h : (ruleSong slot count notes).violations = 0) :
    count.toNat ≤ 16 := by
  obtain ⟨-, hlong⟩ := errset_or_eq_zero.mp h
  simpa using (violateIf_eq_zero (by decide)).mp hlong

/-- R55: the length follows from the format and `LEN`. -/
theorem ruleOf_frame_length {p : Params} {i : Instr} (hwf : i.wf = true) (h : (ruleOf p i).violations = 0) :
    (ruleOf p i).frame.length = frameLength (formatOf i) (listLen i) := by
  cases i with
  | song slot count notes =>
    have hcount : count.toNat ≤ 16 := ruleSong_count_le h
    have hnotes : notes.length = min count.toNat 16 := by simpa [Instr.wf] using hwf
    simp [ruleOf, ruleSong, formatOf, listLen, frameLength]
    omega
  | stream ids | queryList ids =>
    simp [ruleOf, ruleStream, ruleQueryList, formatOf, listLen, frameLength]
    omega
  | schedule flags times =>
    have htimes : times.length = 7 := by simpa [Instr.wf] using hwf
    simp [ruleOf, ruleSchedule, schedulePayload, htimes, formatOf, frameLength]
  | _ => rfl

/-! ### The reader -/

/-- R56: the head of a stream that begins with a command's frame announces the length of its format. -/
theorem headFrameLength_frame_append {p : Params} {i : Instr} (hwf : i.wf = true) (rest : List Byte) :
    headFrameLength (encode i).var ((ruleOf p i).frame ++ rest) = some (frameLength (formatOf i) (listLen i)) := by
  cases i with
  | stream ids | queryList ids =>
    have hids : (countByte ids).toNat = ids.length := countByte_toNat (by simpa [Instr.wf] using hwf)
    exact congrArg (fun n => some (frameLength .L1 n)) hids
  | _ => rfl

theorem cutFrame_append {var : Bool} {frame rest : List Byte}
    (h : headFrameLength var (frame ++ rest) = some frame.length) : cutFrame var (frame ++ rest) = some (frame, rest) := by
  simp [cutFrame, h]

/-! ### The statements about frames -/

/-- Settles O31: the length by format, and the bound on every frame. -/
theorem frameLengthIsThatOfTheFormat : Obligations.FrameLengthIsThatOfTheFormat :=
  fun p _ hwf h => ⟨ruleOf_frame_length hwf h, ruleOf_frame_length_le p hwf⟩

/-- Settles O33: the length the head announces is the length of the frame. -/
theorem readerCutsWholeFrames : Obligations.ReaderCutsWholeFrames := by
  intro p i rest hwf h
  apply cutFrame_append
  rw [headFrameLength_frame_append hwf, ruleOf_frame_length hwf h]

/-! ### Commands that are accepted -/

theorem accepts_of_ruleOf {i : Instr} {s : State} {F : List Byte}
    (h : ruleOf s.params i = { violations := 0, frame := F }) : Accepts i s F := by
  have hexec : exec i s = .next (s.loadFrame F) := by rw [exec_eq_accept, h, accept_ok rfl]
  exact ⟨_, hexec, loadFrame_acceptedAs F s⟩

theorem expand_wf (c : PseudoCommand) : c.expand.wf = true := by
  cases c <;> rfl

/-- Settles O28: the expansions are well formed, and their rules have these frames. -/
theorem pseudoCommandsEmitTheirRealFrames : Obligations.PseudoCommandsEmitTheirRealFrames :=
  ⟨fun c => decode_encode (expand_wf c), fun _ _ =>
    ⟨accepts_of_ruleOf rfl, accepts_of_ruleOf rfl, accepts_of_ruleOf rfl, accepts_of_ruleOf rfl⟩⟩

/-- Settles O1: each word and each descriptor is evaluated. -/
theorem tableWordsDecodeToTheirCommands : Obligations.TableWordsDecodeToTheirCommands :=
  ⟨rfl, rfl, rfl, rfl, rfl, rfl, rfl, rfl, rfl⟩

end Sys2Proof.Machine

/-! ## What a command does not read

The rule of a decoded command depends only on the fields R53 lists for it, flags cut to the command's count (R64). -/

namespace Sys2Proof

/-- The time of day `i` in a descriptor (R133). -/
def Descriptor.time (d : Descriptor) (i : Nat) : TimeOfDay := ⟨d.item (2 * i), d.item (2 * i + 1)⟩

theorem Descriptor.times_eq (d : Descriptor) : d.times = (List.range' 0 7).map d.time := rfl

end Sys2Proof

namespace Sys2Proof.Machine

/-! ### Flags -/

theorem getLsbD_congr {k : Nat} {flags flags' : Byte} (h : flags.toNat % 2 ^ k = flags'.toNat % 2 ^ k) {j : Nat}
    (hj : j < k) : flags.getLsbD j = flags'.getLsbD j := by
  have hbit := congrArg (fun n => n.testBit j) h
  simpa [Nat.testBit_mod_two_pow, hj, BitVec.testBit_toNat] using hbit

theorem pack_getLsbD (k : Nat) (flags : Byte) (i : Nat) :
    (pack k flags).getLsbD i = (decide (i < k) && flags.getLsbD i) := by
  rw [pack, BitVec.getLsbD_and, BitVec.getLsbD_ofNat, Nat.testBit_two_pow_sub_one]
  by_cases hi : i < 8
  · simp [hi, Bool.and_comm]
  · simp [BitVec.getLsbD_of_ge, Nat.le_of_not_lt hi]

theorem pack_congr {k : Nat} {flags flags' : Byte} (h : flags.toNat % 2 ^ k = flags'.toNat % 2 ^ k) :
    pack k flags = pack k flags' := by
  apply BitVec.eq_of_getLsbD_eq
  intro i _
  rw [pack_getLsbD, pack_getLsbD]
  by_cases hi : i < k
  · rw [getLsbD_congr h hi]
  · simp [hi]

/-! ### Entries of `LIST` -/

theorem itemNats_inj {d d' : Descriptor} {n : Nat} : d.itemNats n = d'.itemNats n ↔ ∀ j < n, d.item j = d'.item j := by
  simp [Descriptor.itemNats, Descriptor.items, BitVec.toNat_inj]

section

variable {d d' : Descriptor} {n : Nat}

theorem items_congr (h : ∀ j < n, d.item j = d'.item j) : d.items n = d'.items n :=
  List.map_congr_left fun j hj => h j (List.mem_range.mp hj)

theorem notes_congr (hlen : d.len = d'.len) (h : ∀ j < 2 * min d.len.toNat 16, d.item j = d'.item j) :
    d.notes = d'.notes := by
  rw [Descriptor.notes, Descriptor.notes, ← hlen]
  refine List.map_congr_left fun i hi => ?_
  have hi' := List.mem_range.mp hi
  rw [h (2 * i) (by omega), h (2 * i + 1) (by omega)]

/-- `pad4` looks at the first four entries only (R128). -/
theorem pad4_items_congr (h : ∀ j < min n 4, d.item j = d'.item j) : pad4 (d.items n) = pad4 (d'.items n) := by
  refine List.map_congr_left fun j hj => ?_
  have hj' : j < 4 := List.mem_range.mp hj
  by_cases hn : j < n
  · simp [Descriptor.items, List.getD_eq_getElem?_getD, hn, h j (by omega)]
  · simp [Descriptor.items, List.getD_eq_getElem?_getD, hn]

end

/-! ### The days of a schedule -/

/-- A day counts the same in two schedules: it is active in both, at the same time, or inactive in both. -/
def SameDay (flags flags' : Byte) (times times' : Nat → TimeOfDay) (i : Nat) : Prop :=
  flags.getLsbD i = flags'.getLsbD i ∧ (flags.getLsbD i = true → times i = times' i)

section

variable {flags flags' : Byte} {times times' : Nat → TimeOfDay} {i n : Nat}

/-- What a schedule sends and what it violates depends on its active days. -/
theorem days_congr (h : ∀ j, i ≤ j → j < i + n → SameDay flags flags' times times' j) :
    dayTimes flags i ((List.range' i n).map times) = dayTimes flags' i ((List.range' i n).map times') ∧
    dayViolations flags i ((List.range' i n).map times) = dayViolations flags' i ((List.range' i n).map times') := by
  induction n generalizing i with
  | zero => exact ⟨rfl, rfl⟩
  | succ n ih =>
    obtain ⟨hactive, htime⟩ := h i (Nat.le_refl i) (by omega)
    obtain ⟨hbytes, hviolations⟩ := ih (i := i + 1) fun j hle hlt => h j (by omega) (by omega)
    simp only [List.range'_succ, List.map_cons, dayTimes, dayViolations, hbytes, hviolations, ← hactive]
    cases hf : flags.getLsbD i with
    | true => rw [htime hf]; exact ⟨rfl, rfl⟩
    | false => exact ⟨rfl, rfl⟩

end

/-- Equal concatenations of blocks with equal sizes have equal blocks. -/
theorem flatMap_inj_of_length {α β : Type} {f g : α → List β} {l : List α}
    (hlen : ∀ a ∈ l, (f a).length = (g a).length) (h : l.flatMap f = l.flatMap g) : ∀ a ∈ l, f a = g a := by
  induction l with
  | nil => nofun
  | cons a l ih =>
    rw [List.forall_mem_cons] at hlen ⊢
    rw [List.flatMap_cons, List.flatMap_cons] at h
    obtain ⟨hhead, htail⟩ := List.append_inj h hlen.1
    exact ⟨hhead, ih hlen.2 htail⟩

theorem sameDay_of_activeTimes {d d' : Descriptor} (hflags : d.flags.toNat % 2 ^ 7 = d'.flags.toNat % 2 ^ 7)
    (h : d.activeTimes = d'.activeTimes) {i : Nat} (hi : i < 7) :
    SameDay d.flags d'.flags d.time d'.time i := by
  have hbit : ∀ j < 7, d.flags.getLsbD j = d'.flags.getLsbD j := fun j hj => getLsbD_congr hflags hj
  refine ⟨hbit i hi, fun hactive => ?_⟩
  have hblock := flatMap_inj_of_length (fun j hj => ?_) h i (List.mem_range.mpr hi)
  · have hbytes : d.item (2 * i) = d'.item (2 * i) ∧ d.item (2 * i + 1) = d'.item (2 * i + 1) := by
      simpa [← hbit i hi, hactive, BitVec.toNat_inj] using hblock
    simp only [Descriptor.time, hbytes]
  · rw [hbit j (List.mem_range.mp hj)]
    split <;> rfl

/-! ### One rule per row -/

/-- The rule of the opcode's command depends on the fields the command reads alone. -/
def RuleReads (p : Params) (op : Byte) (operands : Descriptor → Instr) : Prop :=
  ∀ d d' : Descriptor, d.op = op → d'.op = op → d.readFields p = d'.readFields p →
    ruleOf p (operands d) = ruleOf p (operands d')

section

variable (p : Params)

theorem ruleReads_nothing (op : Byte) (i : Instr) : RuleReads p op fun _ => i := fun _ _ _ _ _ => rfl

theorem ruleReads_b0 {op : Byte} (h : op = 129 ∨ op = 141 ∨ op = 142 ∨ op = 151) (command : Byte → Instr) :
    RuleReads p op fun d => command d.b0 := by
  intro d d' hop hop' hfields
  have hbyte : d.b0 = d'.b0 := by
    obtain rfl | rfl | rfl | rfl := h <;> simpa [Descriptor.readFields, hop, hop', BitVec.toNat_inj] using hfields
  simp only [hbyte]

theorem ruleReads_words {op : Byte} (h : op = 137 ∨ op = 145 ∨ op = 146) (command : Word → Word → Instr) :
    RuleReads p op fun d => command d.w0 d.w1 := by
  intro d d' hop hop' hfields
  obtain ⟨hw0, hw1⟩ : d.w0 = d'.w0 ∧ d.w1 = d'.w1 := by
    obtain rfl | rfl | rfl := h <;> simpa [Descriptor.readFields, hop, hop', BitVec.toNat_inj] using hfields
  simp only [hw0, hw1]

theorem ruleReads_three_bytes {op : Byte} (h : op = 144 ∨ op = 168) (command : Byte → Byte → Byte → Instr) :
    RuleReads p op fun d => command d.b0 d.b1 d.b2 := by
  intro d d' hop hop' hfields
  obtain ⟨hb0, hb1, hb2⟩ : d.b0 = d'.b0 ∧ d.b1 = d'.b1 ∧ d.b2 = d'.b2 := by
    obtain rfl | rfl := h <;> simpa [Descriptor.readFields, hop, hop', BitVec.toNat_inj] using hfields
  simp only [hb0, hb1, hb2]

theorem ruleReads_digitLEDsRaw : RuleReads p 163 fun d => .digitLEDsRaw d.b0 d.b1 d.b2 d.b3 := by
  intro d d' hop hop' hfields
  obtain ⟨hb0, hb1, hb2, hb3⟩ : d.b0 = d'.b0 ∧ d.b1 = d'.b1 ∧ d.b2 = d'.b2 ∧ d.b3 = d'.b3 := by
    simpa [Descriptor.readFields, hop, hop', BitVec.toNat_inj] using hfields
  simp only [hb0, hb1, hb2, hb3]

theorem ruleReads_items {op : Byte} (h : op = 148 ∨ op = 149) (command : List Byte → Instr) :
    RuleReads p op fun d => command (d.items d.len.toNat) := by
  intro d d' hop hop' hfields
  obtain ⟨hlen, hitems⟩ : d.len = d'.len ∧ d.itemNats d.len.toNat = d'.itemNats d'.len.toNat := by
    obtain rfl | rfl := h <;> simpa [Descriptor.readFields, hop, hop', BitVec.toNat_inj] using hfields
  rw [← hlen] at hitems
  simp only [← hlen, items_congr (itemNats_inj.mp hitems)]

theorem ruleReads_song : RuleReads p 140 fun d => .song d.b0 d.len d.notes := by
  intro d d' hop hop' hfields
  obtain ⟨hslot, hlen, hitems⟩ : d.b0 = d'.b0 ∧ d.len = d'.len ∧
      d.itemNats (2 * min d.len.toNat 16) = d'.itemNats (2 * min d'.len.toNat 16) := by
    simpa [Descriptor.readFields, hop, hop', BitVec.toNat_inj] using hfields
  rw [← hlen] at hitems
  simp only [hslot, ← hlen, notes_congr hlen (itemNats_inj.mp hitems)]

theorem ruleReads_digitLEDsASCII : RuleReads p 164 fun d => .digitLEDsASCII (d.items d.len.toNat) := by
  intro d d' hop hop' hfields
  obtain ⟨hlen, hitems⟩ : d.len = d'.len ∧ d.itemNats (min d.len.toNat 4) = d'.itemNats (min d'.len.toNat 4) := by
    simpa [Descriptor.readFields, hop, hop', BitVec.toNat_inj] using hfields
  rw [← hlen] at hitems
  simp only [ruleOf, ruleDigitLEDsASCII, ← hlen, pad4_items_congr (itemNats_inj.mp hitems)]

theorem ruleReads_pauseResumeStream : RuleReads p 150 fun d => .pauseResumeStream (d.flags.getLsbD 0) := by
  intro d d' hop hop' hfields
  have hflags : d.flags.toNat % 2 ^ 1 = d'.flags.toNat % 2 ^ 1 := by
    simpa [Descriptor.readFields, hop, hop'] using hfields
  simp only [getLsbD_congr hflags Nat.one_pos]

/-- A command whose rule reads the first `k` flags and nothing else. -/
theorem ruleReads_flags {op : Byte} {k : Nat} {command : Byte → Instr}
    (hread : ∀ d : Descriptor, d.op = op → d.readFields p = [d.flags.toNat % 2 ^ k])
    (hrule : ∀ f f', pack k f = pack k f' → ruleOf p (command f) = ruleOf p (command f')) :
    RuleReads p op fun d => command d.flags := by
  intro d d' hop hop' hfields
  rw [hread d hop, hread d' hop', List.singleton_inj] at hfields
  exact hrule _ _ (pack_congr hfields)

theorem ruleReads_motors : RuleReads p 138 fun d => .motors d.flags :=
  ruleReads_flags p (k := 5) (fun d hop => by simp [Descriptor.readFields, hop])
    fun _ _ hpack => by simp only [ruleOf, ruleMotors, hpack]

theorem ruleReads_digitalOutput : RuleReads p 147 fun d => .digitalOutput d.flags :=
  ruleReads_flags p (k := p.kDigout) (fun d hop => by simp [Descriptor.readFields, hop])
    fun _ _ hpack => by simp only [ruleOf, ruleDigitalOutput, hpack]

theorem ruleReads_buttons : RuleReads p 165 fun d => .buttons d.flags :=
  ruleReads_flags p (k := p.kButtons) (fun d hop => by simp [Descriptor.readFields, hop])
    fun _ _ hpack => by simp only [ruleOf, ruleButtons, hpack]

theorem ruleReads_leds : RuleReads p 139 fun d => .leds d.flags d.b0 d.b1 := by
  intro d d' hop hop' hfields
  obtain ⟨hflags, hb0, hb1⟩ :
      d.flags.toNat % 2 ^ p.kLeds = d'.flags.toNat % 2 ^ p.kLeds ∧ d.b0 = d'.b0 ∧ d.b1 = d'.b1 := by
    simpa [Descriptor.readFields, hop, hop', BitVec.toNat_inj] using hfields
  simp only [ruleOf, ruleLeds, pack_congr hflags, hb0, hb1]

theorem ruleReads_schedulingLEDs : RuleReads p 162 fun d => .schedulingLEDs d.b0 d.flags := by
  intro d d' hop hop' hfields
  obtain ⟨hb0, hflags⟩ : d.b0 = d'.b0 ∧ d.flags.toNat % 2 ^ p.kSchedLeds = d'.flags.toNat % 2 ^ p.kSchedLeds := by
    simpa [Descriptor.readFields, hop, hop', BitVec.toNat_inj] using hfields
  simp only [ruleOf, ruleSchedulingLEDs, hb0, pack_congr hflags]

theorem ruleReads_schedule : RuleReads p 167 fun d => .schedule d.flags d.times := by
  intro d d' hop hop' hfields
  obtain ⟨hflags, htimes⟩ : d.flags.toNat % 2 ^ 7 = d'.flags.toNat % 2 ^ 7 ∧ d.activeTimes = d'.activeTimes := by
    simpa [Descriptor.readFields, hop, hop'] using hfields
  have hsame : ∀ i, 0 ≤ i → i < 0 + 7 → SameDay d.flags d'.flags d.time d'.time i :=
    fun i _ hi => sameDay_of_activeTimes hflags htimes (by omega)
  obtain ⟨hbytes, hviolations⟩ := days_congr hsame
  simp only [ruleOf, ruleSchedule, schedulePayload, Descriptor.times_eq, hbytes, hviolations, pack_congr hflags]

/-! ### All rows -/

theorem opcodeMapLow_ruleReads : ∀ r ∈ opcodeMapLow, r.opcode ≠ 136 → RuleReads p r.opcode r.operands := by
  simp only [opcodeMapLow, List.forall_mem_cons]
  exact ⟨fun _ => ruleReads_nothing p _ _, fun _ => ruleReads_b0 p (by decide) .baud, fun _ => ruleReads_nothing p _ _,
    fun _ => ruleReads_nothing p _ _, fun _ => ruleReads_nothing p _ _, fun _ => ruleReads_nothing p _ _,
    fun _ => ruleReads_nothing p _ _, fun h => absurd rfl h, fun h => absurd rfl h, nofun⟩

theorem opcodeMapMiddle_ruleReads : ∀ r ∈ opcodeMapMiddle, r.opcode ≠ 136 → RuleReads p r.opcode r.operands := by
  simp only [opcodeMapMiddle, List.forall_mem_cons]
  exact ⟨fun _ => ruleReads_words p (by decide) .drive, fun _ => ruleReads_motors p, fun _ => ruleReads_leds p,
    fun _ => ruleReads_song p, fun _ => ruleReads_b0 p (by decide) .play,
    fun _ => ruleReads_b0 p (by decide) .sensors, fun _ => ruleReads_nothing p _ _,
    fun _ => ruleReads_three_bytes p (by decide) .pwmMotors, fun _ => ruleReads_words p (by decide) .driveDirect,
    fun _ => ruleReads_words p (by decide) .drivePWM, nofun⟩

theorem opcodeMapHigh_ruleReads : ∀ r ∈ opcodeMapHigh, r.opcode ≠ 136 → RuleReads p r.opcode r.operands := by
  simp only [opcodeMapHigh, List.forall_mem_cons]
  exact ⟨fun _ => ruleReads_digitalOutput p, fun _ => ruleReads_items p (by decide) .stream,
    fun _ => ruleReads_items p (by decide) .queryList, fun _ => ruleReads_pauseResumeStream p,
    fun _ => ruleReads_b0 p (by decide) .sendIR, fun _ => ruleReads_schedulingLEDs p,
    fun _ => ruleReads_digitLEDsRaw p, fun _ => ruleReads_digitLEDsASCII p, fun _ => ruleReads_buttons p,
    fun _ => ruleReads_schedule p, fun _ => ruleReads_three_bytes p (by decide) .setDateTime, nofun⟩

theorem opcodeMap_ruleReads {r : MapRow} (hr : r ∈ opcodeMap) (hne : r.opcode ≠ 136) :
    RuleReads p r.opcode r.operands := by
  rw [opcodeMap, List.mem_append, List.mem_append] at hr
  obtain (hlow | hmiddle) | hhigh := hr
  · exact opcodeMapLow_ruleReads p r hlow hne
  · exact opcodeMapMiddle_ruleReads p r hmiddle hne
  · exact opcodeMapHigh_ruleReads p r hhigh hne

end

/-! ### The accept step -/

/-- Opcode 136: `Max` reads nothing, `Demo` reads `B0`. -/
theorem decode_congr_136 {p : Params} {d d' : Descriptor} (hop : d.op = 136) (hop' : d'.op = 136) (hvar : d.var = d'.var)
    (hfields : d.readFields p = d'.readFields p) : decode d = decode d' := by
  cases hv : d.var with
  | false => rw [decode_max hop hv, decode_max hop' (hvar ▸ hv)]
  | true =>
    have hv' : d'.var = true := hvar ▸ hv
    have hbyte : d.b0 = d'.b0 := by
      simpa [Descriptor.readFields, hop, hop', hv, hv', BitVec.toNat_inj] using hfields
    rw [decode_demo hop hv, decode_demo hop' hv', hbyte]

/-- Settles O7: the same row matches both selectors, and its command's rule reads the same fields of both. -/
theorem ignoredFieldsChangeNothing : Obligations.IgnoredFieldsChangeNothing := by
  intro d d' s hsel hfields
  obtain ⟨hvar, hop⟩ := Descriptor.sel_inj.mp hsel
  by_cases h136 : d.op = 136
  · rw [acceptDescriptor, acceptDescriptor, decode_congr_136 h136 (hop ▸ h136) hvar hfields]
  cases hdec : decode d with
  | ok i =>
    obtain ⟨r, hr, hm, rfl⟩ := decode_ok hdec
    have hrow : d.op = r.opcode := op_of_matches hr hm
    have hrule := opcodeMap_ruleReads s.params hr (hrow ▸ h136) d d' hrow (hop ▸ hrow) hfields
    rw [acceptDescriptor_ok hdec, acceptDescriptor_ok (decode_of_matches hr (hsel ▸ hm)), exec_eq_accept,
      exec_eq_accept, hrule]
  | error e =>
    obtain ⟨e', hdec'⟩ := decode_error_iff.mpr (hop ▸ decode_error_iff.mp ⟨e, hdec⟩)
    rw [acceptDescriptor_error hdec, acceptDescriptor_error hdec']

end Sys2Proof.Machine

/-! ## The zero-payload commands

Their rows take no operand and their rules have no precondition (R80). -/

namespace Sys2Proof.Machine

/-- The rule of a command without payload is accepted with the opcode as its frame. -/
theorem accepts_opcode {i : Instr} {s : State} {op : Byte} (h : ruleOf s.params i = ruleOpcodeOnly op) :
    Accepts i s [op] :=
  accepts_of_ruleOf h

/-- Settles O12: one row of the map and one opcode-only rule per command. -/
theorem zeroPayloadCommandsEmitTheirOpcode : Obligations.ZeroPayloadCommandsEmitTheirOpcode :=
  ⟨decodesTo_start, decodesTo_safe, decodesTo_full, decodesTo_power, decodesTo_spot, decodesTo_clean,
    decodesTo_seekDock, fun _ => decode_max, fun _ _ =>
    ⟨accepts_opcode rfl, accepts_opcode rfl, accepts_opcode rfl, accepts_opcode rfl, accepts_opcode rfl,
      accepts_opcode rfl, accepts_opcode rfl, accepts_opcode rfl⟩⟩

end Sys2Proof.Machine

/-! ## The byte-operand commands

A checked command is accepted when none of its checks fails, and refused with the exact set of those that fail (R142);
an unchecked one is always accepted. -/

namespace Sys2Proof.Machine

/-! ### The two outcomes of a checked command -/

theorem accepts_of_valid {i : Instr} {s : State} (h : (ruleOf s.params i).violations = 0) :
    Accepts i s (ruleOf s.params i).frame :=
  ⟨_, exec_ok h, loadFrame_acceptedAs _ s⟩

theorem refuses_of_violations {i : Instr} {s : State} {V : ErrSet} (h : (ruleOf s.params i).violations = V)
    (hV : V ≠ 0) : Refuses i s V := by
  subst h
  exact ⟨_, exec_violating hV, refuseViolations_refusedAs _ s⟩

/-- A check stated as a proposition sets its bit exactly when the proposition holds (R143). -/
theorem violateIf_eq_ite (i : Nat) {failed : Bool} {P : Prop} [Decidable P] (h : failed = true ↔ P) :
    violateIf i failed = if P then BitVec.twoPow 32 i else 0 :=
  if_congr h rfl rfl

/-- A command whose only check is an upper limit on one operand: accepted up to the limit, refused with bit 0 above it. -/
theorem upperLimit_outcome {i : Instr} {s : State} {n limit : Nat} {F : List Byte}
    (h : ruleOf s.params i = { violations := violateIf 0 (decide (limit < n)), frame := F }) :
    (n ≤ limit → Accepts i s F) ∧ (limit < n → Refuses i s 0x00000001) := by
  constructor
  · intro hle
    apply accepts_of_ruleOf
    rw [h, decide_eq_false (Nat.not_lt.mpr hle), violateIf_false]
  · intro hlt
    have hbit : (ruleOf s.params i).violations = 0x00000001 := by rw [h, decide_eq_true hlt]; rfl
    exact refuses_of_violations hbit (by decide)

/-- Settles O13: the code is the command's only check, with the limit 11. -/
theorem baudChecksItsCode : Obligations.BaudChecksItsCode :=
  ⟨decodesTo_baud, fun _ _ _ => upperLimit_outcome rfl⟩

/-- Settles O14: the slot is the command's only check, and being a slot below four is being at most 3. -/
theorem playChecksItsSlot : Obligations.PlayChecksItsSlot :=
  ⟨decodesTo_play, fun _ _ _ => upperLimit_outcome rfl⟩

/-! ### PWMMotors -/

theorem not_brushValid_iff {p : Params} {b : Byte} : (!brushValid p b) = true ↔ b ∈ p.brushRefused := by
  simp [brushValid]

/-- R95: one bit per operand. -/
theorem rulePwmMotors_violations (p : Params) (main side vacuum : Byte) :
    (rulePwmMotors p main side vacuum).violations =
      (if main ∈ p.brushRefused then 1 else 0) ||| (if side ∈ p.brushRefused then 2 else 0) |||
      (if 127 < vacuum.toNat then 4 else 0) := by
  rw [rulePwmMotors, violateIf_eq_ite 0 not_brushValid_iff, violateIf_eq_ite 1 not_brushValid_iff,
    violateIf_eq_ite 2 decide_eq_true_iff]
  rfl

theorem rulePwmMotors_valid_iff {p : Params} {main side vacuum : Byte} :
    (rulePwmMotors p main side vacuum).violations = 0 ↔
      main ∉ p.brushRefused ∧ side ∉ p.brushRefused ∧ vacuum.toNat ≤ 127 := by
  rw [rulePwmMotors, errset_or_eq_zero, errset_or_eq_zero, violateIf_eq_zero (by decide), violateIf_eq_zero (by decide),
    violateIf_eq_zero (by decide)]
  simp [brushValid, and_assoc]

/-- Settles O17: the three checks are independent, and the set of the refusal is `rulePwmMotors_violations`. -/
theorem pwmMotorsChecksItsDuties : Obligations.PwmMotorsChecksItsDuties := by
  refine ⟨decodesTo_pwmMotors, fun main side vacuum s _ => ⟨fun hvalid => ?_, fun hinvalid => ?_⟩⟩
  · exact accepts_of_valid (rulePwmMotors_valid_iff.mpr hvalid)
  · have hV := rulePwmMotors_violations s.params main side vacuum
    exact refuses_of_violations hV (hV ▸ mt rulePwmMotors_valid_iff.mp hinvalid)

/-! ### The commands without a check -/

/-- Settles O15: one row of the map per command, and rules without violations whose frames are the operands. -/
theorem uncheckedByteCommandsCopyTheirBytes : Obligations.UncheckedByteCommandsCopyTheirBytes :=
  ⟨fun _ => decode_demo, decodesTo_sensors, decodesTo_sendIR, decodesTo_digitLEDsRaw, fun _ _ _ _ _ _ =>
    ⟨accepts_of_ruleOf rfl, accepts_of_ruleOf rfl, accepts_of_ruleOf rfl, accepts_of_ruleOf rfl⟩⟩

/-- Settles O16: the row reads `FLAGS[0]`, and the rule widens that bit to the payload byte. -/
theorem pauseResumeStreamSendsZeroOrOne : Obligations.PauseResumeStreamSendsZeroOrOne :=
  ⟨decodesTo_pauseResumeStream, fun _ _ => ⟨accepts_of_ruleOf rfl, accepts_of_ruleOf rfl⟩⟩

end Sys2Proof.Machine

/-! ## The drive commands

The payload of two 16-bit values, high byte first (R105), and the three commands that check both of their values, each
violation with a bit of its own (R106 to R108). -/

namespace Sys2Proof.Machine

/-! ### The two bytes of a 16-bit value -/

theorem hi_toNat (w : Word) : (hi w).toNat = w.toNat / 256 := by
  have hw : w.toNat < 65536 := w.isLt
  rw [hi, BitVec.extractLsb'_toNat, Nat.shiftRight_eq_div_pow]
  omega

theorem lo_toNat (w : Word) : (lo w).toNat = w.toNat % 256 := by
  rw [lo, BitVec.extractLsb'_toNat, Nat.shiftRight_zero]

/-- A pattern is its `int16` reading, moved up by `2^16` when that is negative. -/
theorem word_toNat_eq (w : Word) : (w.toNat : Int) = if 0 ≤ w.toInt then w.toInt else w.toInt + 65536 := by
  have hw : w.toNat < 65536 := w.isLt
  rw [BitVec.toInt_eq_toNat_cond]
  split_ifs <;> omega

theorem hi_append_lo (w : Word) : (hi w ++ lo w : Word) = w :=
  (BitVec.extractLsb'_append_extractLsb'_eq_extractLsb' rfl).trans BitVec.extractLsb'_eq_self

/-- Settles O8: moving a negative value up by `2^16` leaves its two low bytes as they are. -/
theorem sixteenBitValuesAreBigEndianPairs : Obligations.SixteenBitValuesAreBigEndianPairs := by
  intro w
  have hw := word_toNat_eq w
  refine ⟨?_, ?_, hw, hi_append_lo w⟩
  · rw [hi_toNat, Int.shiftRight_eq_div_pow]
    split_ifs at hw <;> omega
  · rw [lo_toNat]
    split_ifs at hw <;> omega

/-! ### The two checks of a drive command -/

theorem inRange_iff {w : Word} {low high : Int} : inRange w low high = true ↔ low ≤ w.toInt ∧ w.toInt ≤ high := by
  simp [inRange]

/-- R106: the range, or one of the two values that mean "drive straight". -/
theorem radiusOk_iff {radius : Word} :
    radiusOk radius = true ↔
      (-2000 ≤ radius.toInt ∧ radius.toInt ≤ 2000) ∨ radius.toInt = -32768 ∨ radius.toInt = 32767 := by
  rw [radiusOk, Bool.or_eq_true, inRange_iff, List.contains_iff_mem, List.mem_pair]
  exact or_congr_right or_comm

/-- A command with two checks `a` and `b`, which say `P` and `Q`: accepted when both hold, else refused with bit 0 for a
failed `a` and bit 1 for a failed `b`. -/
theorem twoChecks_outcome {i : Instr} {s : State} {a b : Bool} {F : List Byte} {P Q : Prop}
    (hP : a = true ↔ P) (hQ : b = true ↔ Q)
    (h : ruleOf s.params i = { violations := violateIf 0 (!a) ||| violateIf 1 (!b), frame := F }) :
    (P ∧ Q → Accepts i s F) ∧ (¬ P ∧ Q → Refuses i s 0x00000001) ∧ (P ∧ ¬ Q → Refuses i s 0x00000002) ∧
    (¬ P ∧ ¬ Q → Refuses i s 0x00000003) := by
  have hV := congrArg CommandRule.violations h
  rw [← hP, ← hQ, Bool.not_eq_true, Bool.not_eq_true]
  refine ⟨?accepted, ?first, ?second, ?both⟩ <;> rintro ⟨rfl, rfl⟩
  case accepted => exact accepts_of_ruleOf h
  all_goals exact refuses_of_violations hV (by decide)

/-- Settles O18: velocity and radius are the two checks. -/
theorem driveChecksVelocityAndRadius : Obligations.DriveChecksVelocityAndRadius :=
  ⟨decodesTo_drive, fun _ _ _ _ => twoChecks_outcome inRange_iff radiusOk_iff rfl⟩

/-- Settles O19: the velocities of the right and the left wheel are the two checks. -/
theorem driveDirectChecksBothWheels : Obligations.DriveDirectChecksBothWheels :=
  ⟨decodesTo_driveDirect, fun _ _ _ _ => twoChecks_outcome inRange_iff inRange_iff rfl⟩

/-- Settles O20: the PWM values of the right and the left wheel are the two checks. -/
theorem drivePwmChecksBothWheels : Obligations.DrivePwmChecksBothWheels :=
  ⟨decodesTo_drivePWM, fun _ _ _ _ => twoChecks_outcome inRange_iff inRange_iff rfl⟩

end Sys2Proof.Machine

/-! ## The bitfield commands

As a number, a packed bitfield is the flag byte modulo `2^k` (R113); each command sends its bitfield with nothing to
check (R114 to R118). -/

namespace Sys2Proof.Machine

/-! ### The packed byte as a number -/

theorem pack_toNat (k : Nat) (flags : Byte) : (pack k flags).toNat = flags.toNat % 2 ^ k := by
  apply Nat.eq_of_testBit_eq
  intro i
  rw [BitVec.testBit_toNat, pack_getLsbD, Nat.testBit_mod_two_pow, BitVec.testBit_toNat]

theorem ofNat_mod_two_pow_eq_pack (k : Nat) (flags : Byte) : BitVec.ofNat 8 (flags.toNat % 2 ^ k) = pack k flags := by
  rw [← pack_toNat, BitVec.ofNat_toNat, BitVec.setWidth_eq]

/-- Settles O9: masking bit by bit is cutting the number, for every `k`. -/
theorem packKeepsTheFirstFlagsAndClearsTheRest : Obligations.PackKeepsTheFirstFlagsAndClearsTheRest :=
  fun k flags _ _ => ⟨pack_getLsbD k flags, pack_toNat k flags⟩

/-! ### The commands -/

/-- Settles O21: `Motors` packs five flags, and 32 is `2^5`. -/
theorem motorsSendsItsFiveFlags : Obligations.MotorsSendsItsFiveFlags := by
  refine ⟨decodesTo_motors, fun flags s _ => ?_⟩
  have hpack : BitVec.ofNat 8 (flags.toNat % 32) = pack Limits.kMotors flags := ofNat_mod_two_pow_eq_pack 5 flags
  rw [hpack]
  exact accepts_of_ruleOf rfl

/-- Settles O22: one row of the map per command, and rules without violations that pack with the parameter's count. -/
theorem bitfieldCommandsPackTheirFlags : Obligations.BitfieldCommandsPackTheirFlags := by
  refine ⟨decodesTo_leds, decodesTo_digitalOutput, decodesTo_schedulingLEDs, decodesTo_buttons, ?_⟩
  intro flags a b s _ _
  simp only [ofNat_mod_two_pow_eq_pack]
  exact ⟨accepts_of_ruleOf rfl, accepts_of_ruleOf rfl, accepts_of_ruleOf rfl, accepts_of_ruleOf rfl⟩

end Sys2Proof.Machine

/-! ## The list commands

Notes and characters (R124, R128), then the commands that send a list: the two of identifiers and the message, which check
nothing, and the song, which checks its slot, its length and each of its notes (R125 to R129). -/

namespace Sys2Proof.Machine

/-! ### Notes and characters -/

theorem noteValid_iff {n : Note} : noteValid n = true ↔ 31 ≤ n.number.toNat ∧ n.number.toNat ≤ 127 := by
  simp [noteValid]

/-- Settles O10: validity is the range of the number, and does not read the duration. -/
theorem notesAreValidFrom31To127 : Obligations.NotesAreValidFrom31To127 := fun _ _ => noteValid_iff

theorem pad4_getElem? (m : List Byte) {j : Nat} (hj : j < 4) : (pad4 m)[j]? = some (m.getD j 0x20) := by
  simp [pad4, hj]

/-- Settles O11: character `j` is entry `j` of the message, with a space for a missing one. -/
theorem pad4CutsOrPadsToFour : Obligations.Pad4CutsOrPadsToFour := by
  refine fun m => ⟨pad4_length m, fun j hj => ⟨fun h => ?_, fun h => ?_⟩⟩
  · rw [pad4_getElem? m hj, List.getD_eq_getElem m _ h]
  · rw [pad4_getElem? m hj, List.getD_eq_default m _ h]

/-! ### The commands without a check -/

/-- Settles O25: the rule has no violation, and `pad4` looks up the four characters. -/
theorem digitLedsAsciiSendsFourCharacters : Obligations.DigitLedsAsciiSendsFourCharacters :=
  ⟨decodesTo_digitLEDsASCII, fun _ _ _ => accepts_of_ruleOf rfl⟩

/-- Settles O24: both rules have no violation, and up to 255 identifiers their number fits the count byte. -/
theorem identifierListsCarryAComputedCount : Obligations.IdentifierListsCarryAComputedCount :=
  ⟨decodesTo_stream, decodesTo_queryList, fun ids _ _ hlen =>
    ⟨countByte ids, countByte_toNat hlen, accepts_of_ruleOf rfl, accepts_of_ruleOf rfl⟩⟩

/-! ### The count byte -/

/-- Settles O32: the count of a list of identifiers is computed from it, and a song without violation has as many notes as
its count says. -/
theorem countByteEqualsTheEntriesThatFollow : Obligations.CountByteEqualsTheEntriesThatFollow := by
  constructor
  · rintro ids hlen F (rfl | rfl)
    · exact ⟨countByte ids, rfl, (countByte_toNat hlen).symm⟩
    · exact ⟨countByte ids, rfl, (countByte_toNat hlen).symm⟩
  · intro slot count notes hnotes hvalid
    have hcount : count.toNat ≤ 16 := ruleSong_count_le hvalid
    have hall : notes.length = count.toNat := hnotes.trans (Nat.min_eq_left hcount)
    exact ⟨count, rfl, hall ▸ flatMap_noteBytes_length notes⟩

/-! ### The checks of a song -/

theorem noteViolations_eq_zero_iff {ns : List Note} {i : Nat} (h : i + ns.length ≤ 32) :
    noteViolations i ns = 0 ↔ ∀ n ∈ ns, noteValid n = true := by
  induction ns generalizing i with
  | nil => exact ⟨nofun, fun _ => rfl⟩
  | cons n ns ih =>
    rw [List.length_cons] at h
    rw [noteViolations, errset_or_eq_zero, violateIf_eq_zero (by omega), ih (by omega), List.forall_mem_cons,
      Bool.not_eq_false']

/-- R125: bit `j` is note `j` invalid. -/
theorem noteViolations_getLsbD_iff {ns : List Note} (h : ns.length ≤ 32) {j : Nat} :
    (noteViolations 0 ns).getLsbD j = true ↔
      ∃ n, ns[j]? = some n ∧ ¬ (31 ≤ n.number.toNat ∧ n.number.toNat ≤ 127) := by
  rw [noteViolations_getLsbD ns 0 j (by omega), Nat.sub_zero]
  simp only [← noteValid_iff]
  cases ns[j]? with
  | none => simp
  | some n => simp

section

variable {slot count : Byte} {notes : List Note}

/-- R125: a song of at most sixteen notes has no violation when all three checks pass. -/
theorem ruleSong_valid_iff (h : notes.length ≤ 16) : (ruleSong slot count notes).violations = 0 ↔
    slot.toNat ≤ 3 ∧ count.toNat ≤ 16 ∧ ∀ n ∈ notes, 31 ≤ n.number.toNat ∧ n.number.toNat ≤ 127 := by
  rw [ruleSong, errset_or_eq_zero, errset_or_eq_zero, List.take_of_length_le h, noteViolations_eq_zero_iff (by omega),
    violateIf_eq_zero (by decide), violateIf_eq_zero (by decide)]
  simp only [noteValid_iff, decide_eq_false_iff_not, Nat.not_le, Nat.not_lt, Nat.lt_succ_iff]
  exact and_assoc.trans and_rotate

/-- R125: the bits of a song's violations. -/
theorem ruleSong_getLsbD_iff (h : notes.length ≤ 16) (j : Nat) :
    (ruleSong slot count notes).violations.getLsbD j = true ↔
    (∃ n, notes[j]? = some n ∧ ¬ (31 ≤ n.number.toNat ∧ n.number.toNat ≤ 127)) ∨ (3 < slot.toNat ∧ 16 = j) ∨
    (16 < count.toNat ∧ 17 = j) := by
  rw [ruleSong, BitVec.getLsbD_or, BitVec.getLsbD_or, List.take_of_length_le h,
    violateIf_getLsbD (by decide), violateIf_getLsbD (by decide), Bool.or_eq_true, Bool.or_eq_true,
    noteViolations_getLsbD_iff (by omega), or_assoc]
  simp only [Bool.and_eq_true, decide_eq_true_iff]
  exact Iff.rfl

end

/-- Settles O23: a note has a bit below 16, where slot and length have none, and from bit 16 on there is no note. -/
theorem songChecksSlotLengthAndNotes : Obligations.SongChecksSlotLengthAndNotes := by
  refine ⟨decodesTo_song, fun slot count notes s _ hnotes => ⟨fun hvalid => ?_, fun hinvalid => ?_⟩⟩
  · exact accepts_of_valid ((ruleSong_valid_iff (by omega)).mpr hvalid)
  · have hlen : notes.length ≤ 16 := by omega
    have hbit := ruleSong_getLsbD_iff (slot := slot) (count := count) hlen
    have hnone : ∀ j, 16 ≤ j → notes[j]? = none := fun j hj => List.getElem?_eq_none (hlen.trans hj)
    refine ⟨(ruleSong slot count notes).violations,
      refuses_of_violations rfl (mt (ruleSong_valid_iff hlen).mp hinvalid), fun j hj => ?_, ?_, ?_, fun j hj => ?_⟩
    · exact (hbit j).trans (or_iff_left (by omega))
    · simpa [hnone] using hbit 16
    · simpa [hnone] using hbit 17
    · rw [← Bool.not_eq_true]
      simpa [hnone j (by omega), show ¬ 16 = j by omega, show ¬ 17 = j by omega] using hbit j

end Sys2Proof.Machine

/-! ## The schedule commands

The days of a schedule, what each of them sends and which bits it violates; then Schedule (R133, R134) and SetDateTime
(R136), which checks three bytes. -/

namespace Sys2Proof.Machine

/-! ### The days of a schedule -/

/-- R133: two bytes per day, in the order of the days. -/
theorem dayTimes_eq_flatMap (flags : Byte) (i : Nat) (ts : List TimeOfDay) :
    dayTimes flags i ts = (List.range ts.length).flatMap fun k =>
      if flags.getLsbD (i + k) then [(ts.getD k ⟨0, 0⟩).hour, (ts.getD k ⟨0, 0⟩).minute] else [0, 0] := by
  induction ts generalizing i with
  | nil => rfl
  | cons t ts ih =>
    rw [dayTimes, ih, List.length_cons, List.range_succ_eq_map, List.flatMap_cons, List.flatMap_map]
    simp [Nat.add_assoc, Nat.add_comm 1]

/-- Day `i` at time `t` sets bit `j` of the violations: the day is active, and `j` is the bit of its hour or its minute,
which is out of range (R134). -/
def DaySetsBit (flags : Byte) (i : Nat) (t : TimeOfDay) (j : Nat) : Prop :=
  flags.getLsbD i = true ∧ (2 * i = j ∧ 23 < t.hour.toNat ∨ 2 * i + 1 = j ∧ 59 < t.minute.toNat)

section

variable {flags : Byte} {ts : List TimeOfDay} {i j : Nat} {t : TimeOfDay}

theorem daySetsBit_hour_iff : DaySetsBit flags i t (2 * i) ↔ flags.getLsbD i = true ∧ 23 < t.hour.toNat := by
  simp [DaySetsBit]

theorem daySetsBit_minute_iff : DaySetsBit flags i t (2 * i + 1) ↔ flags.getLsbD i = true ∧ 59 < t.minute.toNat := by
  simp [DaySetsBit]

/-- A bit belongs to one day. -/
theorem DaySetsBit.div_two (h : DaySetsBit flags i t j) : j / 2 = i := by
  obtain ⟨-, h⟩ := h
  omega

theorem dayViolations_from_getLsbD_iff (h : i + ts.length ≤ 16) :
    (dayViolations flags i ts).getLsbD j = true ↔ ∃ k t, ts[k]? = some t ∧ DaySetsBit flags (i + k) t j := by
  induction ts generalizing i with
  | nil => simp [dayViolations]
  | cons t ts ih =>
    rw [List.length_cons] at h
    have hday : (violateIf (2 * i) (flags.getLsbD i && decide (t.hour.toNat > 23)) |||
        violateIf (2 * i + 1) (flags.getLsbD i && decide (t.minute.toNat > 59))).getLsbD j = true ↔
        DaySetsBit flags i t j := by
      rw [BitVec.getLsbD_or, violateIf_getLsbD (by omega), violateIf_getLsbD (by omega), DaySetsBit]
      simp only [Bool.or_eq_true, Bool.and_eq_true, decide_eq_true_iff]
      tauto
    rw [dayViolations, BitVec.getLsbD_or, Bool.or_eq_true, hday, ih (by omega)]
    refine Iff.trans ?_ Nat.or_exists_add_one
    simp [Nat.add_assoc, Nat.add_comm 1]

/-- R134: the bits set are those of the days of the list. -/
theorem dayViolations_getLsbD_iff (h : ts.length ≤ 16) :
    (dayViolations flags 0 ts).getLsbD j = true ↔ ∃ k t, ts[k]? = some t ∧ DaySetsBit flags k t j := by
  simpa using dayViolations_from_getLsbD_iff (i := 0) (by omega)

/-- R134: bits `2i` and `2i+1` are those of day `i` alone. -/
theorem dayViolations_getLsbD_of_day (h : ts.length ≤ 16) (ht : ts[i]? = some t) (hj : j / 2 = i) :
    (dayViolations flags 0 ts).getLsbD j = true ↔ DaySetsBit flags i t j := by
  rw [dayViolations_getLsbD_iff h]
  constructor
  · rintro ⟨k, t', ht', hset⟩
    obtain rfl : k = i := hset.div_two.symm.trans hj
    rwa [Option.some_inj.mp (ht.symm.trans ht')]
  · intro hset
    exact ⟨i, t, ht, hset⟩

/-- There is no day, and so no bit, beyond the list. -/
theorem dayViolations_getLsbD_of_ge (h : ts.length ≤ 16) (hj : 2 * ts.length ≤ j) :
    (dayViolations flags 0 ts).getLsbD j = false := by
  rw [← Bool.not_eq_true, dayViolations_getLsbD_iff h]
  rintro ⟨k, t, ht, hset⟩
  have hk : k < ts.length := (List.getElem?_eq_some_iff.mp ht).1
  have := hset.div_two
  omega

/-- A day sets no bit exactly when it is inactive or its time is in range. -/
theorem forall_not_daySetsBit_iff : (∀ j, ¬ DaySetsBit flags i t j) ↔
    (flags.getLsbD i = true → t.hour.toNat ≤ 23 ∧ t.minute.toNat ≤ 59) := by
  constructor
  · intro h hactive
    exact ⟨Nat.not_lt.mp fun hhour => h _ (daySetsBit_hour_iff.mpr ⟨hactive, hhour⟩),
      Nat.not_lt.mp fun hminute => h _ (daySetsBit_minute_iff.mpr ⟨hactive, hminute⟩)⟩
  · rintro h j ⟨hactive, hbit⟩
    have := h hactive
    omega

/-- R134: no violation exactly when the times of the active days are in range. -/
theorem dayViolations_eq_zero_iff (h : ts.length ≤ 16) : dayViolations flags 0 ts = 0 ↔
    ∀ k t, ts[k]? = some t → flags.getLsbD k = true → t.hour.toNat ≤ 23 ∧ t.minute.toNat ≤ 59 := by
  have hbits : dayViolations flags 0 ts = 0 ↔ ∀ j, ¬ (dayViolations flags 0 ts).getLsbD j = true := by
    simp only [Bool.not_eq_true]
    exact BitVec.zero_iff_eq_false
  simp only [hbits, ← forall_not_daySetsBit_iff, dayViolations_getLsbD_iff h]
  exact ⟨fun hnone k t ht j hset => hnone j ⟨k, t, ht, hset⟩, fun hnone j ⟨k, t, ht, hset⟩ => hnone k t ht j hset⟩

end

/-! ### Schedule -/

/-- R133: the day bits as a number, then the days of a week. -/
theorem ruleSchedule_frame (flags : Byte) {times : List TimeOfDay} (h : times.length = 7) :
    (ruleSchedule flags times).frame = 167 :: BitVec.ofNat 8 (flags.toNat % 128) ::
      (List.range 7).flatMap fun i =>
        if flags.getLsbD i then [(times.getD i ⟨0, 0⟩).hour, (times.getD i ⟨0, 0⟩).minute] else [0, 0] := by
  have hpack : BitVec.ofNat 8 (flags.toNat % 128) = pack Limits.days flags := ofNat_mod_two_pow_eq_pack 7 flags
  rw [ruleSchedule, schedulePayload, hpack, dayTimes_eq_flatMap, h]
  simp only [Nat.zero_add]

/-- Settles O26: the violations are the bits of the days, two for each, and a schedule has seven days. -/
theorem scheduleSendsSevenDaysAndChecksTheActive : Obligations.ScheduleSendsSevenDaysAndChecksTheActive := by
  refine ⟨decodesTo_schedule, fun flags times s _ htimes => ?_⟩
  have hlen : times.length ≤ 16 := by omega
  refine ⟨fun hvalid => ?_, fun hinvalid => ?_⟩
  · rw [← ruleSchedule_frame flags htimes]
    exact accepts_of_valid ((dayViolations_eq_zero_iff hlen).mpr hvalid)
  · refine ⟨dayViolations flags 0 times, refuses_of_violations rfl (mt (dayViolations_eq_zero_iff hlen).mp hinvalid),
      fun i t ht => ⟨?_, ?_⟩, fun j hj => ?_⟩
    · exact (dayViolations_getLsbD_of_day hlen ht (by omega)).trans daySetsBit_hour_iff
    · exact (dayViolations_getLsbD_of_day hlen ht (by omega)).trans daySetsBit_minute_iff
    · exact dayViolations_getLsbD_of_ge hlen (by omega)

/-! ### SetDateTime -/

/-- R136: one bit per field. -/
theorem ruleSetDateTime_violations (weekday hour minute : Byte) :
    (ruleSetDateTime weekday hour minute).violations =
      (if 6 < weekday.toNat then 1 else 0) ||| (if 23 < hour.toNat then 2 else 0) |||
      (if 59 < minute.toNat then 4 else 0) := by
  rw [ruleSetDateTime, violateIf_eq_ite 0 decide_eq_true_iff, violateIf_eq_ite 1 decide_eq_true_iff,
    violateIf_eq_ite 2 decide_eq_true_iff]
  rfl

theorem ruleSetDateTime_valid_iff {weekday hour minute : Byte} :
    (ruleSetDateTime weekday hour minute).violations = 0 ↔
      weekday.toNat ≤ 6 ∧ hour.toNat ≤ 23 ∧ minute.toNat ≤ 59 := by
  rw [ruleSetDateTime, errset_or_eq_zero, errset_or_eq_zero, violateIf_eq_zero (by decide),
    violateIf_eq_zero (by decide), violateIf_eq_zero (by decide)]
  simp [and_assoc]

/-- Settles O27: the three checks are independent, and the set of the refusal is `ruleSetDateTime_violations`. -/
theorem setDateTimeChecksItsFields : Obligations.SetDateTimeChecksItsFields := by
  refine ⟨decodesTo_setDateTime, fun weekday hour minute s _ => ⟨fun hvalid => ?_, fun hinvalid => ?_⟩⟩
  · exact accepts_of_valid (ruleSetDateTime_valid_iff.mpr hvalid)
  · have hV := ruleSetDateTime_violations weekday hour minute
    exact refuses_of_violations hV (hV ▸ mt ruleSetDateTime_valid_iff.mp hinvalid)

end Sys2Proof.Machine

/-! ## Errors and their absence

Which commands can violate and which bits they can set (R141, R144), and the fail step: what it records, and what of the
frame it leaves on TX (R150). -/

namespace Sys2Proof.Machine

/-! ### Violations over all commands -/

/-- R141, R119: outside the range tables no rule has a check. -/
theorem ruleOf_violations_of_unchecked (p : Params) {i : Instr} (h : checked i = false) :
    (ruleOf p i).violations = 0 := by
  cases i with
  | baud _ | drive _ _ | driveDirect _ _ | drivePWM _ _ | pwmMotors _ _ _ | play _ | song _ _ _ | schedule _ _
  | setDateTime _ _ _ => cases h
  | _ => rfl

/-- Settles O29: a rule without a check has no violation, and a command without violation is accepted. -/
theorem commandsWithoutRangeTableNeverViolate : Obligations.CommandsWithoutRangeTableNeverViolate :=
  fun _ s _ hchecked => ⟨_, accepts_of_valid (ruleOf_violations_of_unchecked s.params hchecked)⟩

/-- Settles O30: the violations as a number are below `2 ^ 18`, which has no bit from 18 on. -/
theorem violationBitsStayBelow18 : Obligations.ViolationBitsStayBelow18 := by
  intro p i hwf j hj
  have hlt : (ruleOf p i).violations.toNat < 2 ^ j :=
    (ruleOf_violations_lt p hwf).trans_le (Nat.pow_le_pow_right (by decide) hj)
  exact Nat.testBit_lt_two_pow hlt

/-! ### The fail step -/

/-- `tx_error` wins over `tx_ready` (R150). -/
theorem clockEdge_error {p : PortSample} {s : State} (hrst : p.rst = false) (hph : s.ph = .emit)
    (hlink : s.transport.linked = true) (herr : p.tx.error = true) :
    clockEdge p s = .next (s.failTransport p.tx.ecode) := by
  rw [clockEdge_emit hrst hph, answer_of_linked hlink, txStep_error herr]

/-- Settles O39: the step is the fail step. -/
theorem transportErrorAbandonsTheFrame : Obligations.TransportErrorAbandonsTheFrame := by
  intro s p rest hph hlink henv hrst herr
  exact ⟨_, (step_edge henv).trans (clockEdge_error hrst hph hlink herr),
    rfl, rfl, rfl, rfl, rfl, rfl, rfl, rfl, rfl, rfl, rfl, rfl⟩

/-- Settles O52: the accept step and the calm samples hand over the acknowledged bytes, and the fail step keeps them. -/
theorem failedFrameLeavesExactlyTheAcknowledgedPrefix : Obligations.FailedFrameLeavesExactlyTheAcknowledgedPrefix := by
  intro s d i ps last rest h hph hchan hdec hvalid hcalm hrst herr hacks henv
  obtain ⟨t, hrun, ht⟩ := run_accepted_calm (rest := .edge last :: rest) h hph hchan hdec hvalid hcalm hacks
    (by simpa using henv)
  have hlink : t.transport.linked = true := by simp [ht.transport, Transport.linked, hchan]
  have hfidx : t.fidx.toNat = acks ps := by simpa using ht.fidx
  have hchan' : t.transport.chan = s.transport.chan := by rw [ht.transport, loadFrame_transport]
  have hstep := (step_edge ht.env).trans (clockEdge_error hrst ht.ph hlink herr)
  exact ⟨_, (run_add (n := 1) hrun).trans (run_succ hstep), rfl, ht.tx, rfl, hfidx, rfl, rfl,
    ht.inv.errset_of_emit ht.ph, ht.fb, hfidx, hchan', ht.params, rfl⟩

end Sys2Proof.Machine
